-- ==== Sys2Proof/Word.lean ====
section
/-! DEFINITION. The two word types of the block: a stream byte and a 16-bit address or word (00_scope.md R8, R10).
Everything is unsigned; `+` on a `Word` is already the addition modulo 2^16 that R10 and R25 ask for. -/

namespace Sys2Proof

/-- A stream byte, an opcode, an 8-bit operand: `OPCODE_WIDTH` = 8 bits (R8). -/
abbrev Byte := BitVec 8

/-- An address or a 16-bit operand: `PC_WIDTH` = 16 bits (R8, R25). -/
abbrev Word := BitVec 16

end Sys2Proof
end

