-- ==== Sys2Proof/Config.lean ====
section
/-! DEFINITION. The implementation parameters of 00_scope.md R8, fixed for a run; no input writes them (10_state.md R34).
`NOP_ALIAS_SET` and `MOV_TEXT_ORDER` are arguments of the decode core (R15); the machine runs at `Config.params`,
the values R8 gives this hardware. -/

namespace Sys2Proof

/-- `MOV_TEXT_ORDER` (R8): which operand of MOV is listed first. -/
inductive MovTextOrder where
  | dstSrc
  | srcDst
deriving DecidableEq, Repr

/-- The two parameters a model may take as arguments (R15). -/
structure Params where
  nopAliasSet  : List Byte
  movTextOrder : MovTextOrder
deriving DecidableEq, Repr

/-- `OPCODE_WIDTH` (R8). -/
def Config.opcodeWidth : Nat := 8

/-- `PC_WIDTH` (R8; log entry 8). -/
def Config.pcWidth : Nat := 16

/-- `MAX_OPERAND_BYTES` (R8). -/
def Config.maxOperandBytes : Nat := 2

/-- `MAX_LENGTH` (R8). -/
def Config.maxLength : Nat := 3

/-- The twelve opcodes with no defined 8080 instruction (30_encoding.md R86; PRESUMED, log entry 9). -/
def Config.unusedOpcodes : List Byte :=
  [0x08, 0x10, 0x18, 0x20, 0x28, 0x30, 0x38, 0xCB, 0xD9, 0xDD, 0xED, 0xFD]

/-- The parameter values of this hardware (R8; log entries 6 and 7). -/
def Config.params : Params where
  nopAliasSet  := [0x08, 0x10, 0x18, 0x20, 0x28, 0x30, 0x38]
  movTextOrder := .dstSrc

/-- `UNKNOWN_SET` is always the complement of `NOP_ALIAS_SET` within the twelve (R15, R88). -/
def Params.unknownSet (P : Params) : List Byte :=
  Config.unusedOpcodes.filter fun op => !P.nopAliasSet.contains op

/-- `NOP_ALIAS_SET` must be a subset of the twelve opcodes of R86 (R15, R87). -/
abbrev Params.wf (P : Params) : Prop :=
  ∀ op ∈ P.nopAliasSet, op ∈ Config.unusedOpcodes

end Sys2Proof
end

