-- ==== Sys2Proof/Syntax.lean ====
section
/-! DEFINITION. The vocabulary of the block's input and output: register, pair and condition names (10_state.md R21 to R23),
mnemonics, formats and kinds (30_encoding.md R80, R85, R95), the decode core's outputs (R37), the record (R30), and
`Instr`, one constructor for each row of opcode_table.json in the table's order. -/

namespace Sys2Proof

/-- The RegisterCode table's names (R21); `m` is the memory sentinel, code 6, in both positions (90_conflicts.md C3). -/
inductive Register where
  | b | c | d | e | h | l | m | a
deriving DecidableEq, Repr

/-- The context bit of a pair code (R22). -/
inductive PairContext where
  | spCtx
  | pswCtx
deriving DecidableEq, Repr

/-- The names of the RegisterPairCode table (R22, 92 D7). -/
inductive PairName where
  | bc | de | hl | sp | psw
deriving DecidableEq, Repr

/-- A pair in SP_CTX: the pairs LXI, INX, DCX and DAD can name (R22, R80). -/
inductive SpPair where
  | bc | de | hl | sp
deriving DecidableEq, Repr

/-- A pair in PSW_CTX: the pairs PUSH and POP can name (R22, R40, R80). -/
inductive PswPair where
  | bc | de | hl | psw
deriving DecidableEq, Repr

/-- The pairs LDAX and STAX can name (R80 format PAIR_BD, R158, R159). -/
inductive BdPair where
  | bc | de
deriving DecidableEq, Repr

/-- The ConditionCode table's names (R23); `m` (minus) is not `Register.m` (R41). -/
inductive Condition where
  | nz | z | nc | c | po | pe | p | m
deriving DecidableEq, Repr

/-- The mnemonic enumeration, 79 values (R95). -/
inductive Mnemonic where
  | nop | rlc | rrc | ral | rar | shld | daa | lhld | cma | sta | stc | lda | cmc | hlt | jmp | adi
  | ret | call | aci | outPort | sui | inPort | sbi | xthl | ani | pchl | xchg | xri | di | ori
  | sphl | ei | cpi | lxi | inx | dad | dcx | pop | push | stax | ldax | mov | add | adc | sub
  | sbb | ana | xra | ora | cmp | inr | dcr | mvi | rnz | rz | rnc | rc | rpo | rpe | rp | rm | jnz
  | jz | jnc | jc | jpo | jpe | jp | jm | cnz | cz | cnc | cc | cpo | cpe | cp | cm | rst | unknown
deriving DecidableEq, Repr

/-- The operand formats (R80). -/
inductive Format where
  | none | regP | regPImm8 | regPRegS | regS | pairSp | pairSpImm16 | pairBd | pairPsw
  | imm8 | addr16 | cond | condAddr16 | rst | unknown
deriving DecidableEq, Repr

/-- The kinds of opcode (R85); `aliased` is the spec's ALIAS. -/
inductive Kind where
  | defined | aliased | unknown
deriving DecidableEq, Repr

/-- A pair field of the record: the 2-bit code and its context (R30). -/
structure PairField where
  code : BitVec 2
  ctx  : PairContext
deriving DecidableEq, Repr

/-- The decode core's outputs for one opcode (R37); a `none` is a valid bit of 0 (R43). -/
structure Decoded where
  kind     : Kind
  mnemonic : Mnemonic
  format   : Format
  nops     : Nat
  dst      : Option Register  := .none
  src      : Option Register  := .none
  rp       : Option PairField := .none
  cc       : Option Condition := .none
  rstn     : Option (BitVec 3) := .none
deriving DecidableEq, Repr

/-- One value of a record's operand list (R30, R97). `imm16` is LXI's word, `addr` an address: they render differently (R96). -/
inductive Operand where
  | reg    (r : Register)
  | pair   (p : PairName)
  | imm8   (v : Byte)
  | imm16  (v : Word)
  | addr   (v : Word)
  | rstn   (v : BitVec 3)
  | opcode (v : Byte)
deriving DecidableEq, Repr

/-- The DecodedInstruction record, the block's normative output (R30); a field that is not valid holds `none` (R43). -/
structure DecodedInstruction where
  address    : Word
  opcode     : Byte
  kind       : Kind
  mnemonic   : Mnemonic
  format     : Format
  byteLength : Nat
  dst        : Option Register   := .none
  src        : Option Register   := .none
  rp         : Option PairField  := .none
  cc         : Option Condition  := .none
  rstn       : Option (BitVec 3) := .none
  imm8       : Option Byte       := .none
  imm16      : Option Word       := .none
  operands   : List Operand      := []
deriving DecidableEq, Repr

/-- The instructions: one constructor for each row of opcode_table.json. The five UNKNOWN rows are five constructors
without fields, since each row fixes its whole byte; the NOP-alias row keeps its field xxx = op[5:3] (log entry 18). -/
inductive Instr where
  | nop                                -- 00000000, NONE, R243
  | rlc                                -- 00000111, NONE, R198
  | rrc                                -- 00001111, NONE, R199
  | ral                                -- 00010111, NONE, R200
  | rar                                -- 00011111, NONE, R201
  | shld (addr : Word)                 -- 00100010, ADDR16, R157
  | daa                                -- 00100111, NONE, R179
  | lhld (addr : Word)                 -- 00101010, ADDR16, R156
  | cma                                -- 00101111, NONE, R202
  | sta (addr : Word)                  -- 00110010, ADDR16, R155
  | stc                                -- 00110111, NONE, R204
  | lda (addr : Word)                  -- 00111010, ADDR16, R154
  | cmc                                -- 00111111, NONE, R203
  | hlt                                -- 01110110, NONE, R242
  | jmp (addr : Word)                  -- 11000011, ADDR16, R210
  | adi (imm : Byte)                   -- 11000110, IMM8, R180
  | ret                                -- 11001001, NONE, R214
  | call (addr : Word)                 -- 11001101, ADDR16, R212
  | aci (imm : Byte)                   -- 11001110, IMM8, R181
  | outPort (port : Byte)              -- 11010011, IMM8, R239
  | sui (imm : Byte)                   -- 11010110, IMM8, R182
  | inPort (port : Byte)               -- 11011011, IMM8, R238
  | sbi (imm : Byte)                   -- 11011110, IMM8, R183
  | xthl                               -- 11100011, NONE, R236
  | ani (imm : Byte)                   -- 11100110, IMM8, R194
  | pchl                               -- 11101001, NONE, R217
  | xchg                               -- 11101011, NONE, R160
  | xri (imm : Byte)                   -- 11101110, IMM8, R195
  | di                                 -- 11110011, NONE, R241
  | ori (imm : Byte)                   -- 11110110, IMM8, R196
  | sphl                               -- 11111001, NONE, R237
  | ei                                 -- 11111011, NONE, R240
  | cpi (imm : Byte)                   -- 11111110, IMM8, R197
  | lxi (rp : SpPair) (imm : Word)     -- 00pp0001, PAIR_SP_IMM16, R152
  | inx (rp : SpPair)                  -- 00pp0011, PAIR_SP, R176
  | dad (rp : SpPair)                  -- 00pp1001, PAIR_SP, R178
  | dcx (rp : SpPair)                  -- 00pp1011, PAIR_SP, R177
  | pop (rp : PswPair)                 -- 11pp0001, PAIR_PSW, R235
  | push (rp : PswPair)                -- 11pp0101, PAIR_PSW, R234
  | stax (rp : BdPair)                 -- 000p0010, PAIR_BD, R159
  | ldax (rp : BdPair)                 -- 000p1010, PAIR_BD, R158
  | mov (dst src : Register)           -- 01dddsss, REG_P_REG_S, R150
  | add (src : Register)               -- 10000sss, REG_S, R170
  | adc (src : Register)               -- 10001sss, REG_S, R171
  | sub (src : Register)               -- 10010sss, REG_S, R172
  | sbb (src : Register)               -- 10011sss, REG_S, R173
  | ana (src : Register)               -- 10100sss, REG_S, R190
  | xra (src : Register)               -- 10101sss, REG_S, R191
  | ora (src : Register)               -- 10110sss, REG_S, R192
  | cmp (src : Register)               -- 10111sss, REG_S, R193
  | inr (dst : Register)               -- 00ddd100, REG_P, R174
  | dcr (dst : Register)               -- 00ddd101, REG_P, R175
  | mvi (dst : Register) (imm : Byte)  -- 00ddd110, REG_P_IMM8, R151
  | rnz                                -- 11000000, COND, R215
  | rz                                 -- 11001000, COND, R215
  | rnc                                -- 11010000, COND, R215
  | rc                                 -- 11011000, COND, R215
  | rpo                                -- 11100000, COND, R215
  | rpe                                -- 11101000, COND, R215
  | rp                                 -- 11110000, COND, R215
  | rm                                 -- 11111000, COND, R215
  | jnz (addr : Word)                  -- 11000010, COND_ADDR16, R211
  | jz (addr : Word)                   -- 11001010, COND_ADDR16, R211
  | jnc (addr : Word)                  -- 11010010, COND_ADDR16, R211
  | jc (addr : Word)                   -- 11011010, COND_ADDR16, R211
  | jpo (addr : Word)                  -- 11100010, COND_ADDR16, R211
  | jpe (addr : Word)                  -- 11101010, COND_ADDR16, R211
  | jp (addr : Word)                   -- 11110010, COND_ADDR16, R211
  | jm (addr : Word)                   -- 11111010, COND_ADDR16, R211
  | cnz (addr : Word)                  -- 11000100, COND_ADDR16, R213
  | cz (addr : Word)                   -- 11001100, COND_ADDR16, R213
  | cnc (addr : Word)                  -- 11010100, COND_ADDR16, R213
  | cc (addr : Word)                   -- 11011100, COND_ADDR16, R213
  | cpo (addr : Word)                  -- 11100100, COND_ADDR16, R213
  | cpe (addr : Word)                  -- 11101100, COND_ADDR16, R213
  | cp (addr : Word)                   -- 11110100, COND_ADDR16, R213
  | cm (addr : Word)                   -- 11111100, COND_ADDR16, R213
  | rst (n : BitVec 3)                 -- 11nnn111, RST, R216
  | nopAlias (x : BitVec 3)            -- 00xxx000, NONE, R244
  | unknownCB                          -- 11001011, UNKNOWN, R245
  | unknownD9                          -- 11011001, UNKNOWN, R245
  | unknownDD                          -- 11011101, UNKNOWN, R245
  | unknownED                          -- 11101101, UNKNOWN, R245
  | unknownFD                          -- 11111101, UNKNOWN, R245
deriving DecidableEq, Repr

end Sys2Proof
end

