-- ==== Sys2Proof/WellFormed.lean ====
section
/-! DEFINITION. Which terms of `Instr` are instructions of the block. The types already keep the pair contexts apart;
two checks are left: MOV has no M,M form, and an alias is a member of `NOP_ALIAS_SET`. -/

namespace Sys2Proof

/-- The byte `00xxx000` of the NOP-alias row (45_stack_io_control.md R244). -/
def nopAliasOpcode (x : BitVec 3) : Byte := 0b00#2 ++ x ++ 0b000#3

/-- Is this term an instruction of the block? MOV with dst = src = M is refused, because its byte 0x76 is HLT
(30_encoding.md R90, 41_data_transfer.md R150 (d)); NOP alias is refused unless its byte is in `NOP_ALIAS_SET` (R244). -/
def Instr.wellFormed : Instr → Bool
  | .mov dst src => !(dst == .m && src == .m)
  | .nopAlias x => Config.params.nopAliasSet.contains (nopAliasOpcode x)
  | .nop | .rlc | .rrc | .ral | .rar | .shld _ | .daa | .lhld _ | .cma | .sta _ | .stc | .lda _ | .cmc | .hlt
  | .jmp _ | .adi _ | .ret | .call _ | .aci _ | .outPort _ | .sui _ | .inPort _ | .sbi _ | .xthl | .ani _
  | .pchl | .xchg | .xri _ | .di | .ori _ | .sphl | .ei | .cpi _ | .lxi _ _ | .inx _ | .dad _ | .dcx _
  | .pop _ | .push _ | .stax _ | .ldax _ | .add _ | .adc _ | .sub _ | .sbb _ | .ana _ | .xra _ | .ora _
  | .cmp _ | .inr _ | .dcr _ | .mvi _ _ | .rnz | .rz | .rnc | .rc | .rpo | .rpe | .rp | .rm | .jnz _ | .jz _
  | .jnc _ | .jc _ | .jpo _ | .jpe _ | .jp _ | .jm _ | .cnz _ | .cz _ | .cnc _ | .cc _ | .cpo _ | .cpe _
  | .cp _ | .cm _ | .rst _ | .unknownCB | .unknownD9 | .unknownDD | .unknownED | .unknownFD => true

end Sys2Proof
end

