-- ==== Sys2Proof/Decode.lean ====
section
/-! DEFINITION. The decode core (30_encoding.md): the field selectors and tables, the length classifier, the opcode table,
the ordered decision list of R89 for any parameters (R15), the decoder from bytes to `Instr`, and after it the encoder,
written from the bit patterns of R80 and of the family rules. The opcode map is the Intel 8080's, PRESUMED by the spec
itself outside six opcodes (93 G1, log entry 9). -/

namespace Sys2Proof

/-! ### Field selectors and byte order (R70, R53, R82) -/

/-- op[5:3], the primary field (R70). -/
def fieldP (op : Byte) : BitVec 3 := ((op >>> 3) &&& 0x7).setWidth 3

/-- op[2:0], the secondary field (R70). -/
def fieldS (op : Byte) : BitVec 3 := (op &&& 0x7).setWidth 3

/-- op[5:4], the pair field (R70). -/
def fieldRP (op : Byte) : BitVec 2 := ((op >>> 4) &&& 0x3).setWidth 2

/-- The little-endian assembly `low + (high << 8)` (20_memory.md R53, R82, R134 (b)). -/
def wordOf (low high : Byte) : Word := low.setWidth 16 + (high.setWidth 16 <<< 8)

/-- The byte of a word that comes first in the stream (R53). -/
def lowByte (w : Word) : Byte := w.setWidth 8

/-- The byte of a word that comes second in the stream (R53). -/
def highByte (w : Word) : Byte := (w >>> 8).setWidth 8

/-! ### The three read-only tables (10_state.md R21 to R24) -/

/-- RegisterCode, 8 entries (R21). -/
def registerTable : Vector Register 8 := #v[.b, .c, .d, .e, .h, .l, .m, .a]

/-- `registerName(code)` (R71): total on a 3-bit code, so it has no `err` result (90_conflicts.md C4). -/
def registerName (code : BitVec 3) : Register := registerTable[code.toFin]

/-- RegisterPairCode in SP_CTX (R22). -/
def spPairTable : Vector PairName 4 := #v[.bc, .de, .hl, .sp]

/-- RegisterPairCode in PSW_CTX (R22, R40). -/
def pswPairTable : Vector PairName 4 := #v[.bc, .de, .hl, .psw]

/-- `pairName(code, ctx)` (R72). -/
def pairName (code : BitVec 2) : PairContext → PairName
  | .spCtx  => spPairTable[code.toFin]
  | .pswCtx => pswPairTable[code.toFin]

/-- ConditionCode, 8 entries (R23). -/
def conditionTable : Vector Condition 8 := #v[.nz, .z, .nc, .c, .po, .pe, .p, .m]

/-- `conditionName(code)` (R73). -/
def conditionName (code : BitVec 3) : Condition := conditionTable[code.toFin]

/-- `isRegisterCode(c) = (c != 6)` (R74). -/
def isRegisterCode (code : BitVec 3) : Bool := code != 6

/-- The primary field is a real register or the memory sentinel (R75). -/
def hasValidDestination (op : Byte) : Bool := isRegisterCode (fieldP op) || fieldP op == 6

/-- The secondary field is a real register or the memory sentinel (R75). -/
def hasValidSource (op : Byte) : Bool := isRegisterCode (fieldS op) || fieldS op == 6

/-! ### The length classifier (R77 to R81, R101) -/

/-- The operand bytes of each format, the last but one column of R80. -/
def Format.operandBytes : Format → Nat
  | .none | .regP | .regPRegS | .regS | .pairSp | .pairBd | .pairPsw | .cond | .rst | .unknown => 0
  | .regPImm8 | .imm8 => 1
  | .pairSpImm16 | .addr16 | .condAddr16 => 2

/-- The 18 opcodes with one operand byte (R81). -/
def oneOperandByte : List Byte :=
  [0x06, 0x0E, 0x16, 0x1E, 0x26, 0x2E, 0x36, 0x3E] ++
  [0xC6, 0xCE, 0xD6, 0xDE, 0xE6, 0xEE, 0xF6, 0xFE] ++
  [0xD3, 0xDB]

/-- The 26 opcodes with two operand bytes (R81). -/
def twoOperandBytes : List Byte :=
  [0x01, 0x11, 0x21, 0x31, 0x22, 0x2A, 0x32, 0x3A] ++
  [0xC2, 0xCA, 0xD2, 0xDA, 0xE2, 0xEA, 0xF2, 0xFA] ++
  [0xC3, 0xC4, 0xCC, 0xD4, 0xDC, 0xE4, 0xEC, 0xF4] ++
  [0xFC, 0xCD]

/-- The instruction-length classifier `nops(op)` (R81): the opcode alone decides (R78). -/
def nops (op : Byte) : Nat :=
  if op ∈ oneOperandByte then 1 else if op ∈ twoOperandBytes then 2 else 0

/-- `length(op) = 1 + nops(op)` (R101). -/
def instrLength (op : Byte) : Nat := 1 + nops op

/-! ### The opcode table (opcode_table.json, R92) -/

/-- One row of opcode_table.json. -/
structure TableRow where
  mnemonic     : Mnemonic
  format       : Format
  kind         : Kind
  value        : Byte
  mask         : Byte
  excludes     : List Byte
  operandBytes : Nat
deriving DecidableEq, Repr

/-- Rows 1 to 21 of opcode_table.json. -/
def opcodeTablePart1 : List TableRow :=
  [⟨.nop, .none, .defined, 0x00, 0xFF, [], 0⟩, ⟨.rlc, .none, .defined, 0x07, 0xFF, [], 0⟩] ++
  [⟨.rrc, .none, .defined, 0x0F, 0xFF, [], 0⟩, ⟨.ral, .none, .defined, 0x17, 0xFF, [], 0⟩] ++
  [⟨.rar, .none, .defined, 0x1F, 0xFF, [], 0⟩, ⟨.shld, .addr16, .defined, 0x22, 0xFF, [], 2⟩] ++
  [⟨.daa, .none, .defined, 0x27, 0xFF, [], 0⟩, ⟨.lhld, .addr16, .defined, 0x2A, 0xFF, [], 2⟩] ++
  [⟨.cma, .none, .defined, 0x2F, 0xFF, [], 0⟩, ⟨.sta, .addr16, .defined, 0x32, 0xFF, [], 2⟩] ++
  [⟨.stc, .none, .defined, 0x37, 0xFF, [], 0⟩, ⟨.lda, .addr16, .defined, 0x3A, 0xFF, [], 2⟩] ++
  [⟨.cmc, .none, .defined, 0x3F, 0xFF, [], 0⟩, ⟨.hlt, .none, .defined, 0x76, 0xFF, [], 0⟩] ++
  [⟨.jmp, .addr16, .defined, 0xC3, 0xFF, [], 2⟩, ⟨.adi, .imm8, .defined, 0xC6, 0xFF, [], 1⟩] ++
  [⟨.ret, .none, .defined, 0xC9, 0xFF, [], 0⟩, ⟨.call, .addr16, .defined, 0xCD, 0xFF, [], 2⟩] ++
  [⟨.aci, .imm8, .defined, 0xCE, 0xFF, [], 1⟩, ⟨.outPort, .imm8, .defined, 0xD3, 0xFF, [], 1⟩] ++
  [⟨.sui, .imm8, .defined, 0xD6, 0xFF, [], 1⟩]

/-- Rows 22 to 42 of opcode_table.json. -/
def opcodeTablePart2 : List TableRow :=
  [⟨.inPort, .imm8, .defined, 0xDB, 0xFF, [], 1⟩, ⟨.sbi, .imm8, .defined, 0xDE, 0xFF, [], 1⟩] ++
  [⟨.xthl, .none, .defined, 0xE3, 0xFF, [], 0⟩, ⟨.ani, .imm8, .defined, 0xE6, 0xFF, [], 1⟩] ++
  [⟨.pchl, .none, .defined, 0xE9, 0xFF, [], 0⟩, ⟨.xchg, .none, .defined, 0xEB, 0xFF, [], 0⟩] ++
  [⟨.xri, .imm8, .defined, 0xEE, 0xFF, [], 1⟩, ⟨.di, .none, .defined, 0xF3, 0xFF, [], 0⟩] ++
  [⟨.ori, .imm8, .defined, 0xF6, 0xFF, [], 1⟩, ⟨.sphl, .none, .defined, 0xF9, 0xFF, [], 0⟩] ++
  [⟨.ei, .none, .defined, 0xFB, 0xFF, [], 0⟩, ⟨.cpi, .imm8, .defined, 0xFE, 0xFF, [], 1⟩] ++
  [⟨.lxi, .pairSpImm16, .defined, 0x01, 0xCF, [], 2⟩, ⟨.inx, .pairSp, .defined, 0x03, 0xCF, [], 0⟩] ++
  [⟨.dad, .pairSp, .defined, 0x09, 0xCF, [], 0⟩, ⟨.dcx, .pairSp, .defined, 0x0B, 0xCF, [], 0⟩] ++
  [⟨.pop, .pairPsw, .defined, 0xC1, 0xCF, [], 0⟩, ⟨.push, .pairPsw, .defined, 0xC5, 0xCF, [], 0⟩] ++
  [⟨.stax, .pairBd, .defined, 0x02, 0xEF, [], 0⟩, ⟨.ldax, .pairBd, .defined, 0x0A, 0xEF, [], 0⟩] ++
  [⟨.mov, .regPRegS, .defined, 0x40, 0xC0, [0x76], 0⟩]

/-- Rows 43 to 63 of opcode_table.json. -/
def opcodeTablePart3 : List TableRow :=
  [⟨.add, .regS, .defined, 0x80, 0xF8, [], 0⟩, ⟨.adc, .regS, .defined, 0x88, 0xF8, [], 0⟩] ++
  [⟨.sub, .regS, .defined, 0x90, 0xF8, [], 0⟩, ⟨.sbb, .regS, .defined, 0x98, 0xF8, [], 0⟩] ++
  [⟨.ana, .regS, .defined, 0xA0, 0xF8, [], 0⟩, ⟨.xra, .regS, .defined, 0xA8, 0xF8, [], 0⟩] ++
  [⟨.ora, .regS, .defined, 0xB0, 0xF8, [], 0⟩, ⟨.cmp, .regS, .defined, 0xB8, 0xF8, [], 0⟩] ++
  [⟨.inr, .regP, .defined, 0x04, 0xC7, [], 0⟩, ⟨.dcr, .regP, .defined, 0x05, 0xC7, [], 0⟩] ++
  [⟨.mvi, .regPImm8, .defined, 0x06, 0xC7, [], 1⟩, ⟨.rnz, .cond, .defined, 0xC0, 0xFF, [], 0⟩] ++
  [⟨.rz, .cond, .defined, 0xC8, 0xFF, [], 0⟩, ⟨.rnc, .cond, .defined, 0xD0, 0xFF, [], 0⟩] ++
  [⟨.rc, .cond, .defined, 0xD8, 0xFF, [], 0⟩, ⟨.rpo, .cond, .defined, 0xE0, 0xFF, [], 0⟩] ++
  [⟨.rpe, .cond, .defined, 0xE8, 0xFF, [], 0⟩, ⟨.rp, .cond, .defined, 0xF0, 0xFF, [], 0⟩] ++
  [⟨.rm, .cond, .defined, 0xF8, 0xFF, [], 0⟩, ⟨.jnz, .condAddr16, .defined, 0xC2, 0xFF, [], 2⟩] ++
  [⟨.jz, .condAddr16, .defined, 0xCA, 0xFF, [], 2⟩]

/-- Rows 64 to 84 of opcode_table.json. -/
def opcodeTablePart4 : List TableRow :=
  [⟨.jnc, .condAddr16, .defined, 0xD2, 0xFF, [], 2⟩, ⟨.jc, .condAddr16, .defined, 0xDA, 0xFF, [], 2⟩] ++
  [⟨.jpo, .condAddr16, .defined, 0xE2, 0xFF, [], 2⟩, ⟨.jpe, .condAddr16, .defined, 0xEA, 0xFF, [], 2⟩] ++
  [⟨.jp, .condAddr16, .defined, 0xF2, 0xFF, [], 2⟩, ⟨.jm, .condAddr16, .defined, 0xFA, 0xFF, [], 2⟩] ++
  [⟨.cnz, .condAddr16, .defined, 0xC4, 0xFF, [], 2⟩, ⟨.cz, .condAddr16, .defined, 0xCC, 0xFF, [], 2⟩] ++
  [⟨.cnc, .condAddr16, .defined, 0xD4, 0xFF, [], 2⟩, ⟨.cc, .condAddr16, .defined, 0xDC, 0xFF, [], 2⟩] ++
  [⟨.cpo, .condAddr16, .defined, 0xE4, 0xFF, [], 2⟩, ⟨.cpe, .condAddr16, .defined, 0xEC, 0xFF, [], 2⟩] ++
  [⟨.cp, .condAddr16, .defined, 0xF4, 0xFF, [], 2⟩, ⟨.cm, .condAddr16, .defined, 0xFC, 0xFF, [], 2⟩] ++
  [⟨.rst, .rst, .defined, 0xC7, 0xC7, [], 0⟩, ⟨.nop, .none, .aliased, 0x00, 0xC7, [0x00], 0⟩] ++
  [⟨.unknown, .unknown, .unknown, 0xCB, 0xFF, [], 0⟩, ⟨.unknown, .unknown, .unknown, 0xD9, 0xFF, [], 0⟩] ++
  [⟨.unknown, .unknown, .unknown, 0xDD, 0xFF, [], 0⟩, ⟨.unknown, .unknown, .unknown, 0xED, 0xFF, [], 0⟩] ++
  [⟨.unknown, .unknown, .unknown, 0xFD, 0xFF, [], 0⟩]

/-- The 84 rows of opcode_table.json, in its order. -/
def opcodeTable : List TableRow :=
  opcodeTablePart1 ++ opcodeTablePart2 ++ opcodeTablePart3 ++ opcodeTablePart4

/-- Does the opcode match the row under its `match`, `mask` and `excludes` keys (R92)? -/
def TableRow.covers (row : TableRow) (op : Byte) : Bool :=
  op &&& row.mask == row.value && !row.excludes.contains op

/-! ### The decision list (R89) -/

/-- A decoded value of kind DEFINED with no valid field; the operand-byte count is the format's (R80). -/
def Decoded.plain (m : Mnemonic) (f : Format) : Decoded :=
  { kind := .defined, mnemonic := m, format := f, nops := f.operandBytes }

/-- Step 1 of R89: the exact bytes. -/
def exactBytes : List (Byte × Mnemonic × Format) :=
  [(0x00, .nop, .none), (0x07, .rlc, .none), (0x0F, .rrc, .none), (0x17, .ral, .none),
   (0x1F, .rar, .none), (0x22, .shld, .addr16), (0x27, .daa, .none), (0x2A, .lhld, .addr16),
   (0x2F, .cma, .none), (0x32, .sta, .addr16), (0x37, .stc, .none), (0x3A, .lda, .addr16),
   (0x3F, .cmc, .none), (0x76, .hlt, .none), (0xC3, .jmp, .addr16), (0xC6, .adi, .imm8),
   (0xC9, .ret, .none), (0xCD, .call, .addr16), (0xCE, .aci, .imm8), (0xD3, .outPort, .imm8),
   (0xD6, .sui, .imm8), (0xDB, .inPort, .imm8), (0xDE, .sbi, .imm8), (0xE3, .xthl, .none),
   (0xE6, .ani, .imm8), (0xE9, .pchl, .none), (0xEB, .xchg, .none), (0xEE, .xri, .imm8),
   (0xF3, .di, .none), (0xF6, .ori, .imm8), (0xF9, .sphl, .none), (0xFB, .ei, .none),
   (0xFE, .cpi, .imm8)]

/-- Step 1 of R89. -/
def exactByte (op : Byte) : Option Decoded :=
  (exactBytes.lookup op).map fun (m, f) => .plain m f

/-- Step 2 of R89: one pair-indexed set, tested by exact membership. -/
def smallSet (set : List Byte) (m : Mnemonic) (f : Format) (ctx : PairContext) (op : Byte) : Option Decoded :=
  if op ∈ set then some { Decoded.plain m f with rp := some ⟨fieldRP op, ctx⟩ } else none

/-- Step 3 of R89: one range, taken only if its guard holds; otherwise the next candidate is tried (R91). -/
def guardedRange (mask value : Byte) (guard : Byte → Bool) (d : Byte → Decoded) (op : Byte) : Option Decoded :=
  if op &&& mask = value ∧ guard op = true then some (d op) else none

/-- The ALU operations by op[5:3] (R89 step 3). -/
def aluTable : Vector Mnemonic 8 := #v[.add, .adc, .sub, .sbb, .ana, .xra, .ora, .cmp]

/-- R<cc>, J<cc>, C<cc> by condition code: the prefix and `conditionName` (R95, R211, R213, R215). -/
def returnTable : Vector Mnemonic 8 := #v[.rnz, .rz, .rnc, .rc, .rpo, .rpe, .rp, .rm]
/-- See `returnTable`. -/
def jumpTable : Vector Mnemonic 8 := #v[.jnz, .jz, .jnc, .jc, .jpo, .jpe, .jp, .jm]
/-- See `returnTable`. -/
def callTable : Vector Mnemonic 8 := #v[.cnz, .cz, .cnc, .cc, .cpo, .cpe, .cp, .cm]

/-- A conditional form: mnemonic and `cc` both from op[5:3] (R89 step 3). -/
def conditional (table : Vector Mnemonic 8) (f : Format) (op : Byte) : Decoded :=
  { Decoded.plain table[(fieldP op).toFin] f with cc := some (conditionName (fieldP op)) }

/-- A form with a register in the primary field (R89 step 3). -/
def primaryRegister (m : Mnemonic) (f : Format) (op : Byte) : Decoded :=
  { Decoded.plain m f with dst := some (registerName (fieldP op)) }

/-- MOV: both register fields (R89 step 3). -/
def movDecoded (op : Byte) : Decoded :=
  { Decoded.plain .mov .regPRegS with dst := some (registerName (fieldP op)), src := some (registerName (fieldS op)) }

/-- ALU[op[5:3]] with its source register (R89 step 3). -/
def aluDecoded (op : Byte) : Decoded :=
  { Decoded.plain aluTable[(fieldP op).toFin] .regS with src := some (registerName (fieldS op)) }

/-- RST with its number (R89 step 3). -/
def rstDecoded (op : Byte) : Decoded :=
  { Decoded.plain .rst .rst with rstn := some (fieldP op) }

/-- Step 4 of R89: an explicit list, kind ALIAS (R87, R244). -/
def aliasList (P : Params) (op : Byte) : Option Decoded :=
  if op ∈ P.nopAliasSet then some { Decoded.plain .nop .none with kind := .aliased } else none

/-- Step 5 of R89: the fallback (R88, R245). -/
def unknownDecoded : Decoded :=
  { Decoded.plain .unknown .unknown with kind := .unknown }

/-- The decision list of R89 but its fallback, most specific first. -/
def decisionList (P : Params) : List (Byte → Option Decoded) :=
  [exactByte,
   smallSet [0x01, 0x11, 0x21, 0x31] .lxi .pairSpImm16 .spCtx,
   smallSet [0x03, 0x13, 0x23, 0x33] .inx .pairSp .spCtx,
   smallSet [0x09, 0x19, 0x29, 0x39] .dad .pairSp .spCtx,
   smallSet [0x0B, 0x1B, 0x2B, 0x3B] .dcx .pairSp .spCtx,
   smallSet [0xC1, 0xD1, 0xE1, 0xF1] .pop .pairPsw .pswCtx,
   smallSet [0xC5, 0xD5, 0xE5, 0xF5] .push .pairPsw .pswCtx,
   smallSet [0x02, 0x12] .stax .pairBd .spCtx,
   smallSet [0x0A, 0x1A] .ldax .pairBd .spCtx,
   guardedRange 0xC0 0x40 (fun op => hasValidDestination op && hasValidSource op) movDecoded,
   guardedRange 0xC0 0x80 hasValidSource aluDecoded,
   guardedRange 0xC7 0x04 hasValidDestination (primaryRegister .inr .regP),
   guardedRange 0xC7 0x05 hasValidDestination (primaryRegister .dcr .regP),
   guardedRange 0xC7 0x06 hasValidDestination (primaryRegister .mvi .regPImm8),
   guardedRange 0xC7 0xC0 (fun _ => true) (conditional returnTable .cond),
   guardedRange 0xC7 0xC2 (fun _ => true) (conditional jumpTable .condAddr16),
   guardedRange 0xC7 0xC4 (fun _ => true) (conditional callTable .condAddr16),
   guardedRange 0xC7 0xC7 (fun _ => true) rstDecoded,
   aliasList P]

/-- The opcode decoder `decode(op)` (R89): the first candidate that answers, else the fallback. Total and deterministic (R92). -/
def decodeOp (P : Params) (op : Byte) : Decoded :=
  ((decisionList P).findSome? fun candidate => candidate op).getD unknownDecoded

/-! ### From bytes to instructions -/

/-- The pair a code names in SP_CTX (R22). -/
def spPairOfCode (code : BitVec 2) : SpPair :=
  (#v[.bc, .de, .hl, .sp] : Vector SpPair 4)[code.toFin]

/-- The pair a code names in PSW_CTX (R22). -/
def pswPairOfCode (code : BitVec 2) : PswPair :=
  (#v[.bc, .de, .hl, .psw] : Vector PswPair 4)[code.toFin]

/-- The pair a code names for LDAX and STAX, codes 0 and 1 only (R158, R159). -/
def bdPairOfCode (code : BitVec 2) : Option BdPair :=
  if code = 0 then some .bc else if code = 1 then some .de else none

/-- The five UNKNOWN rows of opcode_table.json (R88, R245). -/
def unknownRow (op : Byte) : Option Instr :=
  ([(0xCB, .unknownCB), (0xD9, .unknownD9), (0xDD, .unknownDD), (0xED, .unknownED), (0xFD, .unknownFD)] :
    List (Byte × Instr)).lookup op

/-- The instruction of an opcode, its decoded value and its operand bytes; `none` where the table has no row for it, which
at this hardware's parameters no opcode meets (log entry 16). -/
def Instr.ofDecoded (op : Byte) (d : Decoded) (b1 b2 : Byte) : Option Instr :=
  match d.mnemonic with
  | .nop =>
    match d.kind with
    | .aliased => if op &&& 0xC7 = 0 then some (.nopAlias (fieldP op)) else none
    | .defined | .unknown => some .nop
  | .unknown => unknownRow op
  | .rlc => some .rlc
  | .rrc => some .rrc
  | .ral => some .ral
  | .rar => some .rar
  | .shld => some (.shld (wordOf b1 b2))
  | .daa => some .daa
  | .lhld => some (.lhld (wordOf b1 b2))
  | .cma => some .cma
  | .sta => some (.sta (wordOf b1 b2))
  | .stc => some .stc
  | .lda => some (.lda (wordOf b1 b2))
  | .cmc => some .cmc
  | .hlt => some .hlt
  | .jmp => some (.jmp (wordOf b1 b2))
  | .adi => some (.adi b1)
  | .ret => some .ret
  | .call => some (.call (wordOf b1 b2))
  | .aci => some (.aci b1)
  | .outPort => some (.outPort b1)
  | .sui => some (.sui b1)
  | .inPort => some (.inPort b1)
  | .sbi => some (.sbi b1)
  | .xthl => some .xthl
  | .ani => some (.ani b1)
  | .pchl => some .pchl
  | .xchg => some .xchg
  | .xri => some (.xri b1)
  | .di => some .di
  | .ori => some (.ori b1)
  | .sphl => some .sphl
  | .ei => some .ei
  | .cpi => some (.cpi b1)
  | .lxi => d.rp.map fun p => .lxi (spPairOfCode p.code) (wordOf b1 b2)
  | .inx => d.rp.map fun p => .inx (spPairOfCode p.code)
  | .dad => d.rp.map fun p => .dad (spPairOfCode p.code)
  | .dcx => d.rp.map fun p => .dcx (spPairOfCode p.code)
  | .pop => d.rp.map fun p => .pop (pswPairOfCode p.code)
  | .push => d.rp.map fun p => .push (pswPairOfCode p.code)
  | .stax => d.rp.bind fun p => (bdPairOfCode p.code).map .stax
  | .ldax => d.rp.bind fun p => (bdPairOfCode p.code).map .ldax
  | .mov => d.dst.bind fun r => d.src.map fun q => .mov r q
  | .add => d.src.map .add
  | .adc => d.src.map .adc
  | .sub => d.src.map .sub
  | .sbb => d.src.map .sbb
  | .ana => d.src.map .ana
  | .xra => d.src.map .xra
  | .ora => d.src.map .ora
  | .cmp => d.src.map .cmp
  | .inr => d.dst.map .inr
  | .dcr => d.dst.map .dcr
  | .mvi => d.dst.map fun r => .mvi r b1
  | .rnz => some .rnz
  | .rz => some .rz
  | .rnc => some .rnc
  | .rc => some .rc
  | .rpo => some .rpo
  | .rpe => some .rpe
  | .rp => some .rp
  | .rm => some .rm
  | .jnz => some (.jnz (wordOf b1 b2))
  | .jz => some (.jz (wordOf b1 b2))
  | .jnc => some (.jnc (wordOf b1 b2))
  | .jc => some (.jc (wordOf b1 b2))
  | .jpo => some (.jpo (wordOf b1 b2))
  | .jpe => some (.jpe (wordOf b1 b2))
  | .jp => some (.jp (wordOf b1 b2))
  | .jm => some (.jm (wordOf b1 b2))
  | .cnz => some (.cnz (wordOf b1 b2))
  | .cz => some (.cz (wordOf b1 b2))
  | .cnc => some (.cnc (wordOf b1 b2))
  | .cc => some (.cc (wordOf b1 b2))
  | .cpo => some (.cpo (wordOf b1 b2))
  | .cpe => some (.cpe (wordOf b1 b2))
  | .cp => some (.cp (wordOf b1 b2))
  | .cm => some (.cm (wordOf b1 b2))
  | .rst => d.rstn.map .rst

/-- Why bytes decode to no instruction. -/
inductive DecodeReject where
  /-- There is no byte at all: the end of the stream at an instruction boundary (40_decode_engine.md R125). -/
  | noByte
  /-- Fewer operand bytes follow the opcode than it needs (40_decode_engine.md R126). -/
  | truncated (opcode : Byte)
  /-- The table has no row for the opcode under the parameters (log entry 16). -/
  | noRow (opcode : Byte)
deriving DecidableEq, Repr

/-- The decoder: the first instruction of the bytes, and the bytes after it. -/
def decode : List Byte → Except DecodeReject (Instr × List Byte)
  | [] => .error .noByte
  | op :: rest =>
    let d := decodeOp Config.params op
    if rest.length < d.nops then .error (.truncated op)
    else match Instr.ofDecoded op d (rest.getD 0 0) (rest.getD 1 0) with
      | some i => .ok (i, rest.drop d.nops)
      | none => .error (.noRow op)

/-- The bytes of an instruction numbered as opcode_table.json numbers its bits, bits above `nbits` being 0; the longest
instruction has three bytes (R77). -/
def tableBytes (nbits w : Nat) : List Byte :=
  [BitVec.ofNat 8 (w % 2 ^ nbits), BitVec.ofNat 8 (w % 2 ^ nbits / 256), BitVec.ofNat 8 (w % 2 ^ nbits / 65536)]

/-- The instruction the decoder reads from a table word. -/
def decodeTableWord (nbits w : Nat) : Option Instr :=
  match decode (tableBytes nbits w) with
  | .ok (i, _) => some i
  | .error _ => none

/-! ### The encoder (R80 and the Encoding clause of each family rule) -/

/-- The code of a register name (R21). -/
def Register.code : Register → BitVec 3
  | .b => 0 | .c => 1 | .d => 2 | .e => 3 | .h => 4 | .l => 5 | .m => 6 | .a => 7

/-- The code of a pair in SP_CTX (R22). -/
def SpPair.code : SpPair → BitVec 2
  | .bc => 0 | .de => 1 | .hl => 2 | .sp => 3

/-- The code of a pair in PSW_CTX (R22). -/
def PswPair.code : PswPair → BitVec 2
  | .bc => 0 | .de => 1 | .hl => 2 | .psw => 3

/-- The code of a pair of LDAX and STAX (R158, R159). -/
def BdPair.code : BdPair → BitVec 2
  | .bc => 0 | .de => 1

/-- The opcode byte of an instruction: its bit pattern in opcode_table.json. -/
def Instr.opcode : Instr → Byte
  | .nop => 0b00000000
  | .rlc => 0b00000111
  | .rrc => 0b00001111
  | .ral => 0b00010111
  | .rar => 0b00011111
  | .shld _ => 0b00100010
  | .daa => 0b00100111
  | .lhld _ => 0b00101010
  | .cma => 0b00101111
  | .sta _ => 0b00110010
  | .stc => 0b00110111
  | .lda _ => 0b00111010
  | .cmc => 0b00111111
  | .hlt => 0b01110110
  | .jmp _ => 0b11000011
  | .adi _ => 0b11000110
  | .ret => 0b11001001
  | .call _ => 0b11001101
  | .aci _ => 0b11001110
  | .outPort _ => 0b11010011
  | .sui _ => 0b11010110
  | .inPort _ => 0b11011011
  | .sbi _ => 0b11011110
  | .xthl => 0b11100011
  | .ani _ => 0b11100110
  | .pchl => 0b11101001
  | .xchg => 0b11101011
  | .xri _ => 0b11101110
  | .di => 0b11110011
  | .ori _ => 0b11110110
  | .sphl => 0b11111001
  | .ei => 0b11111011
  | .cpi _ => 0b11111110
  | .lxi p _ => 0b00#2 ++ p.code ++ 0b0001#4
  | .inx p => 0b00#2 ++ p.code ++ 0b0011#4
  | .dad p => 0b00#2 ++ p.code ++ 0b1001#4
  | .dcx p => 0b00#2 ++ p.code ++ 0b1011#4
  | .pop p => 0b11#2 ++ p.code ++ 0b0001#4
  | .push p => 0b11#2 ++ p.code ++ 0b0101#4
  | .stax p => 0b00#2 ++ p.code ++ 0b0010#4
  | .ldax p => 0b00#2 ++ p.code ++ 0b1010#4
  | .mov dst src => 0b01#2 ++ dst.code ++ src.code
  | .add src => 0b10000#5 ++ src.code
  | .adc src => 0b10001#5 ++ src.code
  | .sub src => 0b10010#5 ++ src.code
  | .sbb src => 0b10011#5 ++ src.code
  | .ana src => 0b10100#5 ++ src.code
  | .xra src => 0b10101#5 ++ src.code
  | .ora src => 0b10110#5 ++ src.code
  | .cmp src => 0b10111#5 ++ src.code
  | .inr dst => 0b00#2 ++ dst.code ++ 0b100#3
  | .dcr dst => 0b00#2 ++ dst.code ++ 0b101#3
  | .mvi dst _ => 0b00#2 ++ dst.code ++ 0b110#3
  | .rnz => 0b11000000
  | .rz => 0b11001000
  | .rnc => 0b11010000
  | .rc => 0b11011000
  | .rpo => 0b11100000
  | .rpe => 0b11101000
  | .rp => 0b11110000
  | .rm => 0b11111000
  | .jnz _ => 0b11000010
  | .jz _ => 0b11001010
  | .jnc _ => 0b11010010
  | .jc _ => 0b11011010
  | .jpo _ => 0b11100010
  | .jpe _ => 0b11101010
  | .jp _ => 0b11110010
  | .jm _ => 0b11111010
  | .cnz _ => 0b11000100
  | .cz _ => 0b11001100
  | .cnc _ => 0b11010100
  | .cc _ => 0b11011100
  | .cpo _ => 0b11100100
  | .cpe _ => 0b11101100
  | .cp _ => 0b11110100
  | .cm _ => 0b11111100
  | .rst n => 0b11#2 ++ n ++ 0b111#3
  | .nopAlias x => 0b00#2 ++ x ++ 0b000#3
  | .unknownCB => 0b11001011
  | .unknownD9 => 0b11011001
  | .unknownDD => 0b11011101
  | .unknownED => 0b11101101
  | .unknownFD => 0b11111101

/-- The operand bytes of an instruction, the low byte of a word first (R77, R53). -/
def Instr.operandBytes : Instr → List Byte
  | .nop | .rlc | .rrc | .ral | .rar | .daa | .cma | .stc | .cmc | .hlt | .ret | .xthl | .pchl | .xchg | .di
  | .sphl | .ei | .inx _ | .dad _ | .dcx _ | .pop _ | .push _ | .stax _ | .ldax _ | .mov _ _ | .add _
  | .adc _ | .sub _ | .sbb _ | .ana _ | .xra _ | .ora _ | .cmp _ | .inr _ | .dcr _ | .rnz | .rz | .rnc | .rc
  | .rpo | .rpe | .rp | .rm | .rst _ | .nopAlias _ | .unknownCB | .unknownD9 | .unknownDD | .unknownED
  | .unknownFD => []
  | .adi v | .aci v | .outPort v | .sui v | .inPort v | .sbi v | .ani v | .xri v | .ori v | .cpi v | .mvi _ v => [v]
  | .shld v | .lhld v | .sta v | .lda v | .jmp v | .call v | .lxi _ v | .jnz v | .jz v | .jnc v | .jc v
  | .jpo v | .jpe v | .jp v | .jm v | .cnz v | .cz v | .cnc v | .cc v | .cpo v | .cpe v | .cp v | .cm v => [lowByte v, highByte v]

/-- The encoder: the bytes of an instruction in stream order (R77). -/
def encode (i : Instr) : List Byte := i.opcode :: i.operandBytes

end Sys2Proof
end

