-- ==== Sys2Proof/Machine/State.lean ====
section
/-! DEFINITION. The state of the sequencer (10_state.md R20 to R38), its outputs and pending inputs, the reasons a step
stops, and the state after reset. -/

namespace Sys2Proof.Machine

/-- The ByteStream as cells (position, byte), positions strictly rising (20_memory.md R50, R51). A position that is not
listed holds no byte: reading it gives `End` (R57, log entry 5). -/
abbrev Memory := List Host.Cell

/-- The control state (10_state.md R26). -/
inductive Phase where
  | opc | op1 | op2 | done | err
deriving DecidableEq, Repr

/-- The failure record `TruncatedInstruction` (10_state.md R29). -/
structure Truncated where
  address : Word
  opcode  : Byte
deriving DecidableEq, Repr

/-- What one read of the stream gives (00_scope.md R11). -/
inductive StreamEvent where
  | byte (b : Byte)
  | endOfStream
deriving DecidableEq, Repr

/-- Everything the spec gives the block to hold, its registered outputs, the inputs the host has offered, and the
observation. `opc`, `lo` and `err` hold `none` exactly where the spec says they hold no value (R27 to R29, log entry 2).
`busy`, `done`, `error` and the failure code are computed from `phase` and `err` (R33, Machine/Flags.lean). -/
structure State where
  /-- Address of the opcode in flight or of the next opcode (R25). -/
  pc       : Word
  /-- The control state (R26). -/
  phase    : Phase
  /-- The opcode latch (R27). -/
  opc      : Option Byte
  /-- The low-byte latch (R28). -/
  lo       : Option Byte
  /-- The failure record (R29). -/
  err      : Option Truncated
  /-- The whole ByteStream of this pass (R50, R265); no step of a pass writes it (R57). -/
  stream   : Memory
  /-- The stream position of the next unread byte (R36 (a)). -/
  cursor   : Nat
  /-- `out_rec`; `out_valid` is 1 exactly when it holds a record (R33, R37). -/
  outRec   : Option DecodedInstruction
  /-- `err_valid` (R37, R126). -/
  errValid : Bool
  /-- A pending `start` pulse and the stream the host supplies with it (R280, R282; log entry 4). -/
  start    : Option Memory
  /-- Has there been a `start` since power-on (R281; log entry 4)? -/
  started  : Bool
  /-- The records handed to the sink, oldest first: the observation (R32; log entry 12). -/
  emitted  : List DecodedInstruction
  /-- How many records of `emitted` are older than the current pass (the model's own field; log entry 12). -/
  passBase : Nat
deriving DecidableEq, Repr

/-- Why the machine has no next state. -/
inductive Fault where
  /-- Raised by `sequencerStep` before the first `start`: the block takes no step (R281, 93 U8). Safe: it only stops. -/
  | notStarted
  /-- Raised by `sequencerStep` in phase DONE: terminal, no further step (R127). Safe: it only stops. -/
  | passDone
  /-- Raised by `sequencerStep` in phase ERR: terminal, no further step (R127, R258). Safe: it only stops. -/
  | passFailed
  /-- Raised by `stepOp1` and `stepOp2` when they read a latch that holds no value: a model error no run reaches
  (93 U7: `fault` if read; log entry 3). Safe: it only stops. -/
  | latchUnwritten
deriving DecidableEq, Repr

/-- Why the model has no answer. -/
inductive Refusal where
  /-- Raised by `exec` for an instruction without a meaning; no arm does so now. Safe: it only stops. -/
  | notModelled (mnemonic : String)
  /-- Raised by `runDecoded` for an opcode the table has no row for; no opcode at this hardware's parameters
  (log entry 16). Safe: it only stops. -/
  | noInstruction (opcode : Byte)
deriving DecidableEq, Repr

/-- The outcome of a step of this machine. -/
abbrev Result := Host.Outcome State Fault Refusal

/-- The state right after `start` (10_state.md R38, R44; 70_reset_and_hazards.md R280), with no byte in the stream:
the host supplies the stream (log entry 5). -/
def State.reset : State where
  pc       := 0
  phase    := .opc
  opc      := none
  lo       := none
  err      := none
  stream   := []
  cursor   := 0
  outRec   := none
  errValid := false
  start    := none
  started  := true
  emitted  := []
  passBase := 0

end Sys2Proof.Machine
end

