-- ==== Sys2Proof/Machine/Ops.lean ====
section
/-! DEFINITION. The named operations on the stream and on the sequencer's state: the one-byte read, the emission of a
record, the two latches, the end of a pass, the failure entry (60_exceptions.md R257) and `start` (R280). -/

namespace Sys2Proof.Machine

/-! ### The ByteStream -/

/-- The byte at a stream position, `none` past the end (20_memory.md R50, R57). -/
def Memory.read (m : Memory) (position : Nat) : Option Byte := m.lookup position

/-- Put one byte at a position, keeping the positions strictly rising. No step uses it: the block never writes (R57). It is
the host's load, seen one byte at a time. -/
def Memory.write : Memory → Nat → Byte → Memory
  | [], position, b => [(position, b)]
  | (k, c) :: rest, position, b =>
    if position < k then (position, b) :: (k, c) :: rest
    else if position = k then (position, b) :: rest
    else (k, c) :: Memory.write rest position b

/-- The cells of consecutive bytes from a position on. -/
def Memory.ofBytesFrom : Nat → List Byte → Memory
  | _, [] => []
  | position, b :: bs => (position, b) :: Memory.ofBytesFrom (position + 1) bs

/-- The ByteStream of a list of bytes: positions 0, 1, 2, … (R50, R51). -/
def Memory.ofBytes (bs : List Byte) : Memory := Memory.ofBytesFrom 0 bs

/-- The bytes of a stream in order. -/
def Memory.bytes (m : Memory) : List Byte := m.map Prod.snd

/-- The canonical form of the cells: positions strictly rising. An unlisted position holds no byte, so no cell can equal it. -/
abbrev Memory.wf (m : Memory) : Prop := m.Pairwise fun a b => a.1 < b.1

/-- The cells are a ByteStream: exactly the positions 0 to length - 1, in order, each once (R50, R51). -/
abbrev Memory.isStream (m : Memory) : Prop := m.map Prod.fst = List.range m.length

/-- The address of a stream position (R51). -/
def streamAddress (position : Nat) : Word := BitVec.ofNat 16 position

/-- `StreamRead()` without its advance: the event at the cursor (00_scope.md R11). The operation that consumes a byte
advances the cursor; `End` advances nothing (R57). -/
def State.event (s : State) : StreamEvent :=
  match s.stream.read s.cursor with
  | some b => .byte b
  | none => .endOfStream

/-! ### The sequencer -/

/-- Consume a byte, emit a record and advance `pc` by `advance` modulo 2^16: phase OPC, `out_valid` for this step; the latches
keep their values (40_decode_engine.md R121 to R124, R27, R28). -/
def State.afterRecord (s : State) (advance : Nat) (r : DecodedInstruction) : State :=
  { s with
    pc := s.pc + BitVec.ofNat 16 advance
    phase := .opc
    cursor := s.cursor + 1
    outRec := some r
    errValid := false
    emitted := s.emitted ++ [r] }

/-- Consume the last byte of an instruction and emit its record: `pc <- pc + byteLength` (R124). -/
def State.afterEmit (s : State) (r : DecodedInstruction) : State := s.afterRecord r.byteLength r

/-- The step that ends in `State.afterEmit`. -/
def State.emit (s : State) (r : DecodedInstruction) : Result := .next (s.afterEmit r)

/-- Consume an opcode byte that takes operand bytes: `opc <- b; phase <- OP1` (R121). -/
def State.latchOpcode (s : State) (b : Byte) : State :=
  { s with opc := some b, phase := .op1, cursor := s.cursor + 1, outRec := none, errValid := false }

/-- Consume the low byte of a 16-bit operand: `lo <- b; phase <- OP2` (R122). -/
def State.latchLow (s : State) (b : Byte) : State :=
  { s with lo := some b, phase := .op2, cursor := s.cursor + 1, outRec := none, errValid := false }

/-- `End` at an instruction boundary: the pass ends in success (R125). -/
def State.finishPass (s : State) : State :=
  { s with phase := .done, outRec := none, errValid := false }

/-- Taking the one failure, TruncatedInstruction (R126, R257): `err` saves `pc` and the opcode, `phase <- ERR`,
`err_valid` is 1, no record, `pc` not advanced. There is no vector. -/
def State.raiseTruncated (s : State) (op : Byte) : State :=
  { s with err := some ⟨s.pc, op⟩, phase := .err, outRec := none, errValid := true }

/-- `start`, the reset and the only way out of a terminal phase (R280, R258, R282): everything at its reset value, the new
stream at position 0; records already emitted stay emitted. -/
def State.beginPass (s : State) (m : Memory) : State :=
  { State.reset with stream := m, emitted := s.emitted, passBase := s.emitted.length }

end Sys2Proof.Machine
end

