-- ==== Sys2Proof/Machine/Operands.lean ====
section
/-! DEFINITION. The operand forms: for each format of 30_encoding.md R80 the record of an instruction of that format, with
its valid fields (R30, R43) and its operand list (R97); and `mkrec`, the record as R124 builds it from a decoded value. -/

namespace Sys2Proof.Machine

/-- The two operands of MOV in the order `MOV_TEXT_ORDER` (R97, 92 D9; log entry 7). -/
def movOperands (P : Params) (dst src : Register) : List Operand :=
  match P.movTextOrder with
  | .dstSrc => [.reg dst, .reg src]
  | .srcDst => [.reg src, .reg dst]

/-- Format NONE. -/
def formNone (pc : Word) (op : Byte) (m : Mnemonic) : DecodedInstruction :=
  { address := pc, opcode := op, kind := .defined, mnemonic := m, format := .none, byteLength := 1 }

/-- Format REG_P. -/
def formRegP (pc : Word) (op : Byte) (m : Mnemonic) (dst : Register) : DecodedInstruction :=
  { address := pc, opcode := op, kind := .defined, mnemonic := m, format := .regP, byteLength := 1,
    dst := some dst, operands := [.reg dst] }

/-- Format REG_P_IMM8. -/
def formRegPImm8 (pc : Word) (op : Byte) (m : Mnemonic) (dst : Register) (imm : Byte) : DecodedInstruction :=
  { address := pc, opcode := op, kind := .defined, mnemonic := m, format := .regPImm8, byteLength := 2,
    dst := some dst, imm8 := some imm, operands := [.reg dst, .imm8 imm] }

/-- Format REG_P_REG_S. -/
def formRegPRegS (pc : Word) (op : Byte) (m : Mnemonic) (dst src : Register) : DecodedInstruction :=
  { address := pc, opcode := op, kind := .defined, mnemonic := m, format := .regPRegS, byteLength := 1,
    dst := some dst, src := some src, operands := movOperands Config.params dst src }

/-- Format REG_S. -/
def formRegS (pc : Word) (op : Byte) (m : Mnemonic) (src : Register) : DecodedInstruction :=
  { address := pc, opcode := op, kind := .defined, mnemonic := m, format := .regS, byteLength := 1,
    src := some src, operands := [.reg src] }

/-- Format PAIR_SP: context SP_CTX. -/
def formPairSp (pc : Word) (op : Byte) (m : Mnemonic) (p : SpPair) : DecodedInstruction :=
  { address := pc, opcode := op, kind := .defined, mnemonic := m, format := .pairSp, byteLength := 1,
    rp := some ⟨p.code, .spCtx⟩, operands := [.pair (pairName p.code .spCtx)] }

/-- Format PAIR_SP_IMM16: context SP_CTX. -/
def formPairSpImm16 (pc : Word) (op : Byte) (m : Mnemonic) (p : SpPair) (imm : Word) : DecodedInstruction :=
  { address := pc, opcode := op, kind := .defined, mnemonic := m, format := .pairSpImm16, byteLength := 3,
    rp := some ⟨p.code, .spCtx⟩, imm16 := some imm, operands := [.pair (pairName p.code .spCtx), .imm16 imm] }

/-- Format PAIR_BD: context SP_CTX, codes 0 and 1. -/
def formPairBd (pc : Word) (op : Byte) (m : Mnemonic) (p : BdPair) : DecodedInstruction :=
  { address := pc, opcode := op, kind := .defined, mnemonic := m, format := .pairBd, byteLength := 1,
    rp := some ⟨p.code, .spCtx⟩, operands := [.pair (pairName p.code .spCtx)] }

/-- Format PAIR_PSW: context PSW_CTX. -/
def formPairPsw (pc : Word) (op : Byte) (m : Mnemonic) (p : PswPair) : DecodedInstruction :=
  { address := pc, opcode := op, kind := .defined, mnemonic := m, format := .pairPsw, byteLength := 1,
    rp := some ⟨p.code, .pswCtx⟩, operands := [.pair (pairName p.code .pswCtx)] }

/-- Format IMM8: an immediate, or the port number of IN and OUT. -/
def formImm8 (pc : Word) (op : Byte) (m : Mnemonic) (imm : Byte) : DecodedInstruction :=
  { address := pc, opcode := op, kind := .defined, mnemonic := m, format := .imm8, byteLength := 2,
    imm8 := some imm, operands := [.imm8 imm] }

/-- Format ADDR16. -/
def formAddr16 (pc : Word) (op : Byte) (m : Mnemonic) (addr : Word) : DecodedInstruction :=
  { address := pc, opcode := op, kind := .defined, mnemonic := m, format := .addr16, byteLength := 3,
    imm16 := some addr, operands := [.addr addr] }

/-- Format COND: the condition is folded into the mnemonic and is no operand (R96, R97). -/
def formCond (pc : Word) (op : Byte) (m : Mnemonic) (cc : Condition) : DecodedInstruction :=
  { address := pc, opcode := op, kind := .defined, mnemonic := m, format := .cond, byteLength := 1, cc := some cc }

/-- Format COND_ADDR16. -/
def formCondAddr16 (pc : Word) (op : Byte) (m : Mnemonic) (cc : Condition) (addr : Word) : DecodedInstruction :=
  { address := pc, opcode := op, kind := .defined, mnemonic := m, format := .condAddr16, byteLength := 3,
    cc := some cc, imm16 := some addr, operands := [.addr addr] }

/-- Format RST. -/
def formRst (pc : Word) (op : Byte) (m : Mnemonic) (n : BitVec 3) : DecodedInstruction :=
  { address := pc, opcode := op, kind := .defined, mnemonic := m, format := .rst, byteLength := 1,
    rstn := some n, operands := [.rstn n] }

/-- The NOP-alias record: NOP with kind ALIAS (R244). -/
def formAlias (pc : Word) (op : Byte) (m : Mnemonic) : DecodedInstruction :=
  { address := pc, opcode := op, kind := .aliased, mnemonic := m, format := .none, byteLength := 1 }

/-- Format UNKNOWN: the fallback record, its operand the raw opcode (R88, R245). -/
def formUnknown (pc : Word) (op : Byte) (m : Mnemonic) : DecodedInstruction :=
  { address := pc, opcode := op, kind := .unknown, mnemonic := m, format := .unknown, byteLength := 1,
    operands := [.opcode op] }

/-- The operand list of a record by its format (R97). -/
def operandList (P : Params) (r : DecodedInstruction) : List Operand :=
  let dst := r.dst.toList.map .reg
  let src := r.src.toList.map .reg
  let pair := r.rp.toList.map fun p => .pair (pairName p.code p.ctx)
  match r.format with
  | .none | .cond => []
  | .regP => dst
  | .regPImm8 => dst ++ r.imm8.toList.map .imm8
  | .regPRegS => match P.movTextOrder with
    | .dstSrc => dst ++ src
    | .srcDst => src ++ dst
  | .regS => src
  | .pairSp | .pairBd | .pairPsw => pair
  | .pairSpImm16 => pair ++ r.imm16.toList.map .imm16
  | .imm8 => r.imm8.toList.map .imm8
  | .addr16 | .condAddr16 => r.imm16.toList.map .addr
  | .rst => r.rstn.toList.map .rstn
  | .unknown => [.opcode r.opcode]

/-- `mkrec(pc, op, d, b1, b2)` (40_decode_engine.md R124): the record of a decoded value and its operand bytes. -/
def mkrec (P : Params) (pc : Word) (op : Byte) (d : Decoded) (b1 b2 : Byte) : DecodedInstruction :=
  let r : DecodedInstruction :=
    { address := pc, opcode := op, kind := d.kind, mnemonic := d.mnemonic, format := d.format,
      byteLength := 1 + d.nops, dst := d.dst, src := d.src, rp := d.rp, cc := d.cc, rstn := d.rstn,
      imm8 := if d.nops = 1 then some b1 else none,
      imm16 := if d.nops = 2 then some (wordOf b1 b2) else none }
  { r with operands := operandList P r }

end Sys2Proof.Machine
end

