-- ==== Sys2Proof/Machine/Arithmetic.lean ====
section
/-! DEFINITION. The meanings of the instructions of spec/42_arithmetic.md. The block does not execute an instruction, it decodes it
(00_scope.md R7): the meaning of each is the step that consumes its last byte, which emits the record the instruction's rule
gives, advances `pc` by its length and goes back to phase OPC (40_decode_engine.md R124). -/

namespace Sys2Proof.Machine

/-- ADD: add register or memory (R170, `10000sss`). -/
def execAdd (src : Register) (s : State) : Result :=
  s.emit (formRegS s.pc (Instr.add src).opcode .add src)

/-- ADC: add with carry register or memory (R171, `10001sss`). -/
def execAdc (src : Register) (s : State) : Result :=
  s.emit (formRegS s.pc (Instr.adc src).opcode .adc src)

/-- SUB: subtract register or memory (R172, `10010sss`). -/
def execSub (src : Register) (s : State) : Result :=
  s.emit (formRegS s.pc (Instr.sub src).opcode .sub src)

/-- SBB: subtract with borrow register or memory (R173, `10011sss`). -/
def execSbb (src : Register) (s : State) : Result :=
  s.emit (formRegS s.pc (Instr.sbb src).opcode .sbb src)

/-- INR: increment register or memory (R174, `00ddd100`). -/
def execInr (dst : Register) (s : State) : Result :=
  s.emit (formRegP s.pc (Instr.inr dst).opcode .inr dst)

/-- DCR: decrement register or memory (R175, `00ddd101`). -/
def execDcr (dst : Register) (s : State) : Result :=
  s.emit (formRegP s.pc (Instr.dcr dst).opcode .dcr dst)

/-- INX: increment register pair (R176, `00pp0011`). -/
def execInx (p : SpPair) (s : State) : Result :=
  s.emit (formPairSp s.pc (Instr.inx p).opcode .inx p)

/-- DCX: decrement register pair (R177, `00pp1011`). -/
def execDcx (p : SpPair) (s : State) : Result :=
  s.emit (formPairSp s.pc (Instr.dcx p).opcode .dcx p)

/-- DAD: add register pair to HL (R178, `00pp1001`). -/
def execDad (p : SpPair) (s : State) : Result :=
  s.emit (formPairSp s.pc (Instr.dad p).opcode .dad p)

/-- DAA: decimal adjust accumulator (R179, `00100111`). -/
def execDaa (s : State) : Result :=
  s.emit (formNone s.pc Instr.daa.opcode .daa)

/-- ADI: add immediate (R180, `11000110`). -/
def execAdi (imm : Byte) (s : State) : Result :=
  s.emit (formImm8 s.pc (Instr.adi imm).opcode .adi imm)

/-- ACI: add with carry immediate (R181, `11001110`). -/
def execAci (imm : Byte) (s : State) : Result :=
  s.emit (formImm8 s.pc (Instr.aci imm).opcode .aci imm)

/-- SUI: subtract immediate (R182, `11010110`). -/
def execSui (imm : Byte) (s : State) : Result :=
  s.emit (formImm8 s.pc (Instr.sui imm).opcode .sui imm)

/-- SBI: subtract with borrow immediate (R183, `11011110`). -/
def execSbi (imm : Byte) (s : State) : Result :=
  s.emit (formImm8 s.pc (Instr.sbi imm).opcode .sbi imm)

end Sys2Proof.Machine
end

