-- ==== Sys2Proof/Machine/Branch.lean ====
section
/-! DEFINITION. The meanings of the instructions of spec/44_branch.md. The block does not execute an instruction, it decodes it
(00_scope.md R7): the meaning of each is the step that consumes its last byte, which emits the record the instruction's rule
gives, advances `pc` by its length and goes back to phase OPC (40_decode_engine.md R124). No branch is taken (R218, R135). -/

namespace Sys2Proof.Machine

/-- JMP: jump (R210, `11000011`). -/
def execJmp (addr : Word) (s : State) : Result :=
  s.emit (formAddr16 s.pc (Instr.jmp addr).opcode .jmp addr)

/-- JNZ: condition NZ, named and not evaluated (R211, `11000010`). -/
def execJnz (addr : Word) (s : State) : Result :=
  s.emit (formCondAddr16 s.pc (Instr.jnz addr).opcode .jnz .nz addr)

/-- JZ: condition Z, named and not evaluated (R211, `11001010`). -/
def execJz (addr : Word) (s : State) : Result :=
  s.emit (formCondAddr16 s.pc (Instr.jz addr).opcode .jz .z addr)

/-- JNC: condition NC, named and not evaluated (R211, `11010010`). -/
def execJnc (addr : Word) (s : State) : Result :=
  s.emit (formCondAddr16 s.pc (Instr.jnc addr).opcode .jnc .nc addr)

/-- JC: condition C, named and not evaluated (R211, `11011010`). -/
def execJc (addr : Word) (s : State) : Result :=
  s.emit (formCondAddr16 s.pc (Instr.jc addr).opcode .jc .c addr)

/-- JPO: condition PO, named and not evaluated (R211, `11100010`). -/
def execJpo (addr : Word) (s : State) : Result :=
  s.emit (formCondAddr16 s.pc (Instr.jpo addr).opcode .jpo .po addr)

/-- JPE: condition PE, named and not evaluated (R211, `11101010`). -/
def execJpe (addr : Word) (s : State) : Result :=
  s.emit (formCondAddr16 s.pc (Instr.jpe addr).opcode .jpe .pe addr)

/-- JP: condition P, named and not evaluated (R211, `11110010`). -/
def execJp (addr : Word) (s : State) : Result :=
  s.emit (formCondAddr16 s.pc (Instr.jp addr).opcode .jp .p addr)

/-- JM: condition M, named and not evaluated (R211, `11111010`). -/
def execJm (addr : Word) (s : State) : Result :=
  s.emit (formCondAddr16 s.pc (Instr.jm addr).opcode .jm .m addr)

/-- CALL: call (R212, `11001101`). -/
def execCall (addr : Word) (s : State) : Result :=
  s.emit (formAddr16 s.pc (Instr.call addr).opcode .call addr)

/-- CNZ: condition NZ, named and not evaluated (R213, `11000100`). -/
def execCnz (addr : Word) (s : State) : Result :=
  s.emit (formCondAddr16 s.pc (Instr.cnz addr).opcode .cnz .nz addr)

/-- CZ: condition Z, named and not evaluated (R213, `11001100`). -/
def execCz (addr : Word) (s : State) : Result :=
  s.emit (formCondAddr16 s.pc (Instr.cz addr).opcode .cz .z addr)

/-- CNC: condition NC, named and not evaluated (R213, `11010100`). -/
def execCnc (addr : Word) (s : State) : Result :=
  s.emit (formCondAddr16 s.pc (Instr.cnc addr).opcode .cnc .nc addr)

/-- CC: condition C, named and not evaluated (R213, `11011100`). -/
def execCc (addr : Word) (s : State) : Result :=
  s.emit (formCondAddr16 s.pc (Instr.cc addr).opcode .cc .c addr)

/-- CPO: condition PO, named and not evaluated (R213, `11100100`). -/
def execCpo (addr : Word) (s : State) : Result :=
  s.emit (formCondAddr16 s.pc (Instr.cpo addr).opcode .cpo .po addr)

/-- CPE: condition PE, named and not evaluated (R213, `11101100`). -/
def execCpe (addr : Word) (s : State) : Result :=
  s.emit (formCondAddr16 s.pc (Instr.cpe addr).opcode .cpe .pe addr)

/-- CP: condition P, named and not evaluated (R213, `11110100`). -/
def execCp (addr : Word) (s : State) : Result :=
  s.emit (formCondAddr16 s.pc (Instr.cp addr).opcode .cp .p addr)

/-- CM: condition M, named and not evaluated (R213, `11111100`). -/
def execCm (addr : Word) (s : State) : Result :=
  s.emit (formCondAddr16 s.pc (Instr.cm addr).opcode .cm .m addr)

/-- RET: return (R214, `11001001`). -/
def execRet (s : State) : Result :=
  s.emit (formNone s.pc Instr.ret.opcode .ret)

/-- RNZ: condition NZ, named and not evaluated (R215, `11000000`). -/
def execRnz (s : State) : Result :=
  s.emit (formCond s.pc Instr.rnz.opcode .rnz .nz)

/-- RZ: condition Z, named and not evaluated (R215, `11001000`). -/
def execRz (s : State) : Result :=
  s.emit (formCond s.pc Instr.rz.opcode .rz .z)

/-- RNC: condition NC, named and not evaluated (R215, `11010000`). -/
def execRnc (s : State) : Result :=
  s.emit (formCond s.pc Instr.rnc.opcode .rnc .nc)

/-- RC: condition C, named and not evaluated (R215, `11011000`). -/
def execRc (s : State) : Result :=
  s.emit (formCond s.pc Instr.rc.opcode .rc .c)

/-- RPO: condition PO, named and not evaluated (R215, `11100000`). -/
def execRpo (s : State) : Result :=
  s.emit (formCond s.pc Instr.rpo.opcode .rpo .po)

/-- RPE: condition PE, named and not evaluated (R215, `11101000`). -/
def execRpe (s : State) : Result :=
  s.emit (formCond s.pc Instr.rpe.opcode .rpe .pe)

/-- RP: condition P, named and not evaluated (R215, `11110000`). -/
def execRp (s : State) : Result :=
  s.emit (formCond s.pc Instr.rp.opcode .rp .p)

/-- RM: condition M, named and not evaluated (R215, `11111000`). -/
def execRm (s : State) : Result :=
  s.emit (formCond s.pc Instr.rm.opcode .rm .m)

/-- RST: restart (R216, `11nnn111`). -/
def execRst (n : BitVec 3) (s : State) : Result :=
  s.emit (formRst s.pc (Instr.rst n).opcode .rst n)

/-- PCHL: jump to the address in HL (R217, `11101001`). -/
def execPchl (s : State) : Result :=
  s.emit (formNone s.pc Instr.pchl.opcode .pchl)

end Sys2Proof.Machine
end

