-- ==== Sys2Proof/Machine/DataTransfer.lean ====
section
/-! DEFINITION. The meanings of the instructions of spec/41_data_transfer.md. The block does not execute an instruction, it decodes it
(00_scope.md R7): the meaning of each is the step that consumes its last byte, which emits the record the instruction's rule
gives, advances `pc` by its length and goes back to phase OPC (40_decode_engine.md R124). -/

namespace Sys2Proof.Machine

/-- MOV: register or memory to register or memory (R150, `01dddsss`). -/
def execMov (dst src : Register) (s : State) : Result :=
  s.emit (formRegPRegS s.pc (Instr.mov dst src).opcode .mov dst src)

/-- MVI: move immediate to register or memory (R151, `00ddd110`). -/
def execMvi (dst : Register) (imm : Byte) (s : State) : Result :=
  s.emit (formRegPImm8 s.pc (Instr.mvi dst imm).opcode .mvi dst imm)

/-- LXI: load register pair immediate (R152, `00pp0001`). -/
def execLxi (p : SpPair) (imm : Word) (s : State) : Result :=
  s.emit (formPairSpImm16 s.pc (Instr.lxi p imm).opcode .lxi p imm)

/-- LDA: load accumulator direct (R154, `00111010`). -/
def execLda (addr : Word) (s : State) : Result :=
  s.emit (formAddr16 s.pc (Instr.lda addr).opcode .lda addr)

/-- STA: store accumulator direct (R155, `00110010`). -/
def execSta (addr : Word) (s : State) : Result :=
  s.emit (formAddr16 s.pc (Instr.sta addr).opcode .sta addr)

/-- LHLD: load H and L direct (R156, `00101010`). -/
def execLhld (addr : Word) (s : State) : Result :=
  s.emit (formAddr16 s.pc (Instr.lhld addr).opcode .lhld addr)

/-- SHLD: store H and L direct (R157, `00100010`). -/
def execShld (addr : Word) (s : State) : Result :=
  s.emit (formAddr16 s.pc (Instr.shld addr).opcode .shld addr)

/-- LDAX: load accumulator indirect through BC or DE (R158, `000p1010`). -/
def execLdax (p : BdPair) (s : State) : Result :=
  s.emit (formPairBd s.pc (Instr.ldax p).opcode .ldax p)

/-- STAX: store accumulator indirect through BC or DE (R159, `000p0010`). -/
def execStax (p : BdPair) (s : State) : Result :=
  s.emit (formPairBd s.pc (Instr.stax p).opcode .stax p)

/-- XCHG: exchange HL with DE (R160, `11101011`). -/
def execXchg (s : State) : Result :=
  s.emit (formNone s.pc Instr.xchg.opcode .xchg)

end Sys2Proof.Machine
end

