-- ==== Sys2Proof/Machine/Logical.lean ====
section
/-! DEFINITION. The meanings of the instructions of spec/43_logical.md. The block does not execute an instruction, it decodes it
(00_scope.md R7): the meaning of each is the step that consumes its last byte, which emits the record the instruction's rule
gives, advances `pc` by its length and goes back to phase OPC (40_decode_engine.md R124). -/

namespace Sys2Proof.Machine

/-- ANA: and register or memory (R190, `10100sss`). -/
def execAna (src : Register) (s : State) : Result :=
  s.emit (formRegS s.pc (Instr.ana src).opcode .ana src)

/-- XRA: exclusive or register or memory (R191, `10101sss`). -/
def execXra (src : Register) (s : State) : Result :=
  s.emit (formRegS s.pc (Instr.xra src).opcode .xra src)

/-- ORA: or register or memory (R192, `10110sss`). -/
def execOra (src : Register) (s : State) : Result :=
  s.emit (formRegS s.pc (Instr.ora src).opcode .ora src)

/-- CMP: compare register or memory (R193, `10111sss`). -/
def execCmp (src : Register) (s : State) : Result :=
  s.emit (formRegS s.pc (Instr.cmp src).opcode .cmp src)

/-- ANI: and immediate (R194, `11100110`). -/
def execAni (imm : Byte) (s : State) : Result :=
  s.emit (formImm8 s.pc (Instr.ani imm).opcode .ani imm)

/-- XRI: exclusive or immediate (R195, `11101110`). -/
def execXri (imm : Byte) (s : State) : Result :=
  s.emit (formImm8 s.pc (Instr.xri imm).opcode .xri imm)

/-- ORI: or immediate (R196, `11110110`). -/
def execOri (imm : Byte) (s : State) : Result :=
  s.emit (formImm8 s.pc (Instr.ori imm).opcode .ori imm)

/-- CPI: compare immediate (R197, `11111110`). -/
def execCpi (imm : Byte) (s : State) : Result :=
  s.emit (formImm8 s.pc (Instr.cpi imm).opcode .cpi imm)

/-- RLC: rotate accumulator left (R198, `00000111`). -/
def execRlc (s : State) : Result :=
  s.emit (formNone s.pc Instr.rlc.opcode .rlc)

/-- RRC: rotate accumulator right (R199, `00001111`). -/
def execRrc (s : State) : Result :=
  s.emit (formNone s.pc Instr.rrc.opcode .rrc)

/-- RAL: rotate accumulator left through carry (R200, `00010111`). -/
def execRal (s : State) : Result :=
  s.emit (formNone s.pc Instr.ral.opcode .ral)

/-- RAR: rotate accumulator right through carry (R201, `00011111`). -/
def execRar (s : State) : Result :=
  s.emit (formNone s.pc Instr.rar.opcode .rar)

/-- CMA: complement accumulator (R202, `00101111`). -/
def execCma (s : State) : Result :=
  s.emit (formNone s.pc Instr.cma.opcode .cma)

/-- CMC: complement carry (R203, `00111111`). -/
def execCmc (s : State) : Result :=
  s.emit (formNone s.pc Instr.cmc.opcode .cmc)

/-- STC: set carry (R204, `00110111`). -/
def execStc (s : State) : Result :=
  s.emit (formNone s.pc Instr.stc.opcode .stc)

end Sys2Proof.Machine
end

