-- ==== Sys2Proof/Machine/StackIoControl.lean ====
section
/-! DEFINITION. The meanings of the instructions of spec/45_stack_io_control.md. The block does not execute an instruction, it decodes it
(00_scope.md R7): the meaning of each is the step that consumes its last byte, which emits the record the instruction's rule
gives, advances `pc` by its length and goes back to phase OPC (40_decode_engine.md R124). -/

namespace Sys2Proof.Machine

/-- PUSH: push register pair or PSW (R234, `11pp0101`). -/
def execPush (p : PswPair) (s : State) : Result :=
  s.emit (formPairPsw s.pc (Instr.push p).opcode .push p)

/-- POP: pop register pair or PSW (R235, `11pp0001`). -/
def execPop (p : PswPair) (s : State) : Result :=
  s.emit (formPairPsw s.pc (Instr.pop p).opcode .pop p)

/-- XTHL: exchange top of stack with HL (R236, `11100011`). -/
def execXthl (s : State) : Result :=
  s.emit (formNone s.pc Instr.xthl.opcode .xthl)

/-- SPHL: load SP from HL (R237, `11111001`). -/
def execSphl (s : State) : Result :=
  s.emit (formNone s.pc Instr.sphl.opcode .sphl)

/-- IN: input from port (R238, `11011011`). -/
def execInPort (port : Byte) (s : State) : Result :=
  s.emit (formImm8 s.pc (Instr.inPort port).opcode .inPort port)

/-- OUT: output to port (R239, `11010011`). -/
def execOutPort (port : Byte) (s : State) : Result :=
  s.emit (formImm8 s.pc (Instr.outPort port).opcode .outPort port)

/-- EI: enable interrupts (R240, `11111011`). -/
def execEi (s : State) : Result :=
  s.emit (formNone s.pc Instr.ei.opcode .ei)

/-- DI: disable interrupts (R241, `11110011`). -/
def execDi (s : State) : Result :=
  s.emit (formNone s.pc Instr.di.opcode .di)

/-- HLT: halt (R242, `01110110`). -/
def execHlt (s : State) : Result :=
  s.emit (formNone s.pc Instr.hlt.opcode .hlt)

/-- NOP: no operation (R243, `00000000`). -/
def execNop (s : State) : Result :=
  s.emit (formNone s.pc Instr.nop.opcode .nop)

/-- NOP alias: an architecturally unused opcode decoded as NOP (R244, `00xxx000`). -/
def execNopAlias (x : BitVec 3) (s : State) : Result :=
  s.emit (formAlias s.pc (Instr.nopAlias x).opcode .nop)

/-- UNKNOWN 0xCB: fallback for an opcode with no instruction (R245, `11001011`). -/
def execUnknownCB (s : State) : Result :=
  s.emit (formUnknown s.pc Instr.unknownCB.opcode .unknown)

/-- UNKNOWN 0xD9: fallback for an opcode with no instruction (R245, `11011001`). -/
def execUnknownD9 (s : State) : Result :=
  s.emit (formUnknown s.pc Instr.unknownD9.opcode .unknown)

/-- UNKNOWN 0xDD: fallback for an opcode with no instruction (R245, `11011101`). -/
def execUnknownDD (s : State) : Result :=
  s.emit (formUnknown s.pc Instr.unknownDD.opcode .unknown)

/-- UNKNOWN 0xED: fallback for an opcode with no instruction (R245, `11101101`). -/
def execUnknownED (s : State) : Result :=
  s.emit (formUnknown s.pc Instr.unknownED.opcode .unknown)

/-- UNKNOWN 0xFD: fallback for an opcode with no instruction (R245, `11111101`). -/
def execUnknownFD (s : State) : Result :=
  s.emit (formUnknown s.pc Instr.unknownFD.opcode .unknown)

end Sys2Proof.Machine
end

