-- ==== Sys2Proof/Machine/Dispatch.lean ====
section
/-! DEFINITION. One arm for each constructor of `Instr`, in the order of opcode_table.json. -/

namespace Sys2Proof.Machine

def exec (i : Instr) (s : State) : Host.Outcome State Fault Refusal :=
  match i with
  | .nop => Sys2Proof.Machine.execNop s
  | .rlc => Sys2Proof.Machine.execRlc s
  | .rrc => Sys2Proof.Machine.execRrc s
  | .ral => Sys2Proof.Machine.execRal s
  | .rar => Sys2Proof.Machine.execRar s
  | .shld addr => Sys2Proof.Machine.execShld addr s
  | .daa => Sys2Proof.Machine.execDaa s
  | .lhld addr => Sys2Proof.Machine.execLhld addr s
  | .cma => Sys2Proof.Machine.execCma s
  | .sta addr => Sys2Proof.Machine.execSta addr s
  | .stc => Sys2Proof.Machine.execStc s
  | .lda addr => Sys2Proof.Machine.execLda addr s
  | .cmc => Sys2Proof.Machine.execCmc s
  | .hlt => Sys2Proof.Machine.execHlt s
  | .jmp addr => Sys2Proof.Machine.execJmp addr s
  | .adi imm => Sys2Proof.Machine.execAdi imm s
  | .ret => Sys2Proof.Machine.execRet s
  | .call addr => Sys2Proof.Machine.execCall addr s
  | .aci imm => Sys2Proof.Machine.execAci imm s
  | .outPort port => Sys2Proof.Machine.execOutPort port s
  | .sui imm => Sys2Proof.Machine.execSui imm s
  | .inPort port => Sys2Proof.Machine.execInPort port s
  | .sbi imm => Sys2Proof.Machine.execSbi imm s
  | .xthl => Sys2Proof.Machine.execXthl s
  | .ani imm => Sys2Proof.Machine.execAni imm s
  | .pchl => Sys2Proof.Machine.execPchl s
  | .xchg => Sys2Proof.Machine.execXchg s
  | .xri imm => Sys2Proof.Machine.execXri imm s
  | .di => Sys2Proof.Machine.execDi s
  | .ori imm => Sys2Proof.Machine.execOri imm s
  | .sphl => Sys2Proof.Machine.execSphl s
  | .ei => Sys2Proof.Machine.execEi s
  | .cpi imm => Sys2Proof.Machine.execCpi imm s
  | .lxi p imm => Sys2Proof.Machine.execLxi p imm s
  | .inx p => Sys2Proof.Machine.execInx p s
  | .dad p => Sys2Proof.Machine.execDad p s
  | .dcx p => Sys2Proof.Machine.execDcx p s
  | .pop p => Sys2Proof.Machine.execPop p s
  | .push p => Sys2Proof.Machine.execPush p s
  | .stax p => Sys2Proof.Machine.execStax p s
  | .ldax p => Sys2Proof.Machine.execLdax p s
  | .mov dst src => Sys2Proof.Machine.execMov dst src s
  | .add src => Sys2Proof.Machine.execAdd src s
  | .adc src => Sys2Proof.Machine.execAdc src s
  | .sub src => Sys2Proof.Machine.execSub src s
  | .sbb src => Sys2Proof.Machine.execSbb src s
  | .ana src => Sys2Proof.Machine.execAna src s
  | .xra src => Sys2Proof.Machine.execXra src s
  | .ora src => Sys2Proof.Machine.execOra src s
  | .cmp src => Sys2Proof.Machine.execCmp src s
  | .inr dst => Sys2Proof.Machine.execInr dst s
  | .dcr dst => Sys2Proof.Machine.execDcr dst s
  | .mvi dst imm => Sys2Proof.Machine.execMvi dst imm s
  | .rnz => Sys2Proof.Machine.execRnz s
  | .rz => Sys2Proof.Machine.execRz s
  | .rnc => Sys2Proof.Machine.execRnc s
  | .rc => Sys2Proof.Machine.execRc s
  | .rpo => Sys2Proof.Machine.execRpo s
  | .rpe => Sys2Proof.Machine.execRpe s
  | .rp => Sys2Proof.Machine.execRp s
  | .rm => Sys2Proof.Machine.execRm s
  | .jnz addr => Sys2Proof.Machine.execJnz addr s
  | .jz addr => Sys2Proof.Machine.execJz addr s
  | .jnc addr => Sys2Proof.Machine.execJnc addr s
  | .jc addr => Sys2Proof.Machine.execJc addr s
  | .jpo addr => Sys2Proof.Machine.execJpo addr s
  | .jpe addr => Sys2Proof.Machine.execJpe addr s
  | .jp addr => Sys2Proof.Machine.execJp addr s
  | .jm addr => Sys2Proof.Machine.execJm addr s
  | .cnz addr => Sys2Proof.Machine.execCnz addr s
  | .cz addr => Sys2Proof.Machine.execCz addr s
  | .cnc addr => Sys2Proof.Machine.execCnc addr s
  | .cc addr => Sys2Proof.Machine.execCc addr s
  | .cpo addr => Sys2Proof.Machine.execCpo addr s
  | .cpe addr => Sys2Proof.Machine.execCpe addr s
  | .cp addr => Sys2Proof.Machine.execCp addr s
  | .cm addr => Sys2Proof.Machine.execCm addr s
  | .rst n => Sys2Proof.Machine.execRst n s
  | .nopAlias x => Sys2Proof.Machine.execNopAlias x s
  | .unknownCB => Sys2Proof.Machine.execUnknownCB s
  | .unknownD9 => Sys2Proof.Machine.execUnknownD9 s
  | .unknownDD => Sys2Proof.Machine.execUnknownDD s
  | .unknownED => Sys2Proof.Machine.execUnknownED s
  | .unknownFD => Sys2Proof.Machine.execUnknownFD s

end Sys2Proof.Machine
end

