-- ==== Sys2Proof/Machine/Flags.lean ====
section
/-! DEFINITION. The block computes no condition flags (10_state.md R33); its status outputs and ports, computed from the
state and from the decode core's value (R33, R37, 60_exceptions.md R252), stand here. -/

namespace Sys2Proof.Machine

/-- `busy`: an instruction is in flight (R33). -/
def State.busy (s : State) : Bool := s.phase == .op1 || s.phase == .op2

/-- `done`: the pass ended in success (R33). -/
def State.done (s : State) : Bool := s.phase == .done

/-- `error`: the pass failed (R33). -/
def State.error (s : State) : Bool := s.phase == .err

/-- `out_valid`: the last step emitted a record (R33). -/
def State.outValid (s : State) : Bool := s.outRec.isSome

/-- `err_addr`, a value only while `err` holds a failure (R37, R43). -/
def State.errAddr (s : State) : Option Word := s.err.map Truncated.address

/-- `err_opc`, a value only while `err` holds a failure (R37, R43). -/
def State.errOpc (s : State) : Option Byte := s.err.map Truncated.opcode

/-- The 2-bit failure code: 00 none, 01 TruncatedInstruction; 10 and 11 are never driven (R252, 92 D16). -/
def State.errCode (s : State) : BitVec 2 := if s.err.isSome then 0b01 else 0b00

/-- The 1-bit port `rp_ctx` (R37). -/
def pairContextBit : PairContext → BitVec 1
  | .spCtx => 0
  | .pswCtx => 1

/-- The 2-bit port `nops` (R37). -/
def nopsPort (d : Decoded) : BitVec 2 := BitVec.ofNat 2 d.nops

/-- The valid bits `dst_v`, `src_v`, `rp_v`, `cc_v`, `rst_v` of the decode core (R37). -/
def validBits (d : Decoded) : Bool × Bool × Bool × Bool × Bool :=
  (d.dst.isSome, d.src.isSome, d.rp.isSome, d.cc.isSome, d.rstn.isSome)

/-- How a pass ended (R285). -/
inductive PassOutcome where
  | success
  | truncated (address : Word) (opcode : Byte)
deriving DecidableEq, Repr

/-- The records of the current pass, oldest first (R32, R285). -/
def State.passRecords (s : State) : List DecodedInstruction := s.emitted.drop s.passBase

/-- The outcome of the current pass, once it has ended; a pass abandoned by `start` has none (R285, 93 U9). -/
def State.outcome (s : State) : Option PassOutcome :=
  match s.phase with
  | .done => some .success
  | .err => s.err.map fun e => .truncated e.address e.opcode
  | .opc | .op1 | .op2 => none

/-- The observation of a pass that has ended: its records in order and its outcome (R285). -/
def State.observation (s : State) : Option (List DecodedInstruction × PassOutcome) :=
  s.outcome.map fun o => (s.passRecords, o)

end Sys2Proof.Machine
end

