-- ==== Sys2Proof/Machine/Sequencer.lean ====
section
/-! DEFINITION. The step of the sequencer on one stream event (40_decode_engine.md R120 to R128), and the placing of one
instruction where the next step fetches. `exec i` is the step that consumes the last byte of `i`; the steps before it only
latch (log entry 1). -/

namespace Sys2Proof.Machine

/-- The instruction's last byte has arrived: run the instruction its opcode and operand bytes spell (R121 to R123). -/
def runDecoded (op b1 b2 : Byte) (s : State) : Result :=
  match Instr.ofDecoded op (decodeOp Config.params op) b1 b2 with
  | some i => exec i s
  | none => .refused (.noInstruction op)

/-- Phase OPC (R121, R125). -/
def stepOpc (s : State) : Result :=
  match s.event with
  | .endOfStream => .next s.finishPass
  | .byte b => if (decodeOp Config.params b).nops = 0 then runDecoded b 0 0 s else .next (s.latchOpcode b)

/-- Phase OP1 (R122, R126, R128): an opcode that does not take exactly one operand byte goes on to phase OP2, as the `else` of
R128 has it. -/
def stepOp1 (s : State) : Result :=
  match s.opc with
  | none => .fault .latchUnwritten
  | some op =>
    match s.event with
    | .endOfStream => .next (s.raiseTruncated op)
    | .byte b =>
      if (decodeOp Config.params op).nops = 1 then runDecoded op b 0 s
      else .next (s.latchLow b)

/-- Phase OP2 (R123, R126, R128). An opcode of two operand bytes is complete and runs. R128 asks nothing of the latched
opcode: with any other, which no run latches, its `mkrec` record is emitted and `pc` advances by 3 (log entry 3). The record of
an opcode without operand bytes takes nothing from `lo` (R124), so that latch is not read for it. -/
def stepOp2 (s : State) : Result :=
  match s.opc with
  | none => .fault .latchUnwritten
  | some op =>
    match s.event with
    | .endOfStream => .next (s.raiseTruncated op)
    | .byte b =>
      let d := decodeOp Config.params op
      if d.nops = 0 then .next (s.afterRecord 3 (mkrec Config.params s.pc op d 0 b))
      else
        match s.lo with
        | none => .fault .latchUnwritten
        | some low =>
          if d.nops = 2 then runDecoded op low b s
          else .next (s.afterRecord 3 (mkrec Config.params s.pc op d low b))

/-- One transition: a pending `start` first (R280, R282; log entry 4); no step before the first `start` (R281); otherwise
the step of R128 on the next stream event; DONE and ERR have none (R127). -/
def sequencerStep (s : State) : Result :=
  match s.start with
  | some m => .next (s.beginPass m)
  | none =>
    if s.started then
      match s.phase with
      | .opc => stepOpc s
      | .op1 => stepOp1 s
      | .op2 => stepOp2 s
      | .done => .fault .passDone
      | .err => .fault .passFailed
    else .fault .notStarted

/-- The bytes of a table word put into the stream at the cursor, and the sequencer brought to the last byte of that
instruction: its earlier bytes consumed and latched as R121 and R122 latch them, no `start` pending, no failure. The very
next step then consumes the instruction's last byte and runs it (log entry 14). -/
def State.placeWord (s : State) (nbits w : Nat) : State :=
  let op := (tableBytes nbits w).getD 0 0
  let low := (tableBytes nbits w).getD 1 0
  let high := (tableBytes nbits w).getD 2 0
  let n := (decodeOp Config.params op).nops
  { s with
    stream := ((s.stream.write s.cursor op).write (s.cursor + 1) low).write (s.cursor + 2) high
    cursor := s.cursor + n
    phase := if n = 0 then .opc else if n = 1 then .op1 else .op2
    opc := if n = 0 then s.opc else some op
    lo := if n = 2 then some low else s.lo
    err := none
    start := none
    started := true }

end Sys2Proof.Machine
end

