-- ==== Sys2Proof/Machine/Step.lean ====
section
/-! DEFINITION. The step of the machine, one stream event a step (40_decode_engine.md R120), and the state in which the next
step runs a given instruction. -/

namespace Sys2Proof.Machine

/-- One step (R128). -/
def step (s : State) : Host.Outcome State Fault Refusal := sequencerStep s

/-- The state in which the very next step runs the instruction with the table word `w` (log entry 14). -/
def State.withFetchWord (s : State) (nbits w : Nat) : State := s.placeWord nbits w

end Sys2Proof.Machine
end

