-- ==== Sys2Proof/Machine/Pass.lean ====
section
/-! DEFINITION. The whole pass as a function of the stream (40_decode_engine.md R129, R137), written from the decode core
and `mkrec` alone, beside the step machine and independent of it. -/

namespace Sys2Proof.Machine

/-- Put a record in front of a pass's result. -/
def consRecord (r : DecodedInstruction) (p : List DecodedInstruction × PassOutcome) :
    List DecodedInstruction × PassOutcome :=
  (r :: p.1, p.2)

/-- The pass from address `pc` on the bytes not yet read (R129). An instruction is truncated exactly when fewer bytes follow
it than it needs (R137). -/
def passFrom (P : Params) (pc : Word) : List Byte → List DecodedInstruction × PassOutcome
  | [] => ([], .success)
  | op :: rest =>
    let d := decodeOp P op
    match d.nops, rest with
    | 0, rest => consRecord (mkrec P pc op d 0 0) (passFrom P (pc + 1) rest)
    | 1, b1 :: rest => consRecord (mkrec P pc op d b1 0) (passFrom P (pc + 2) rest)
    | 2, b1 :: b2 :: rest => consRecord (mkrec P pc op d b1 b2) (passFrom P (pc + 3) rest)
    | _, _ => ([], .truncated pc op)

/-- `pass(s)` (R129): from the reset state, address 0. -/
def pass (P : Params) (bytes : List Byte) : List DecodedInstruction × PassOutcome := passFrom P 0 bytes

end Sys2Proof.Machine
end

