-- ==== Sys2Proof/Safety.lean ====
section
/-! DEFINITION. What claims are stated in: the record's own invariant, the no-gap law, the invariant every step keeps, and
where the machine may have no next state. -/

namespace Sys2Proof.Machine

/-! ### Records -/

/-- Which formats have a destination register (30_encoding.md R80). -/
def hasDst : Format → Bool
  | .regP | .regPImm8 | .regPRegS => true
  | .none | .regS | .pairSp | .pairSpImm16 | .pairBd | .pairPsw | .imm8 | .addr16 | .cond | .condAddr16 | .rst | .unknown => false

/-- Which formats have a source register (R80). -/
def hasSrc : Format → Bool
  | .regPRegS | .regS => true
  | .none | .regP | .regPImm8 | .pairSp | .pairSpImm16 | .pairBd | .pairPsw | .imm8 | .addr16 | .cond | .condAddr16 | .rst
  | .unknown => false

/-- The pair context of a format, for the formats with a pair (R80). -/
def pairContext : Format → Option PairContext
  | .pairSp | .pairSpImm16 | .pairBd => some .spCtx
  | .pairPsw => some .pswCtx
  | .none | .regP | .regPImm8 | .regPRegS | .regS | .imm8 | .addr16 | .cond | .condAddr16 | .rst | .unknown => none

/-- Which formats are conditional (R80). -/
def hasCond : Format → Bool
  | .cond | .condAddr16 => true
  | .none | .regP | .regPImm8 | .regPRegS | .regS | .pairSp | .pairSpImm16 | .pairBd | .pairPsw | .imm8 | .addr16 | .rst
  | .unknown => false

/-- The record's fields are valid exactly where the table of R30 says (R30, R43), and its length is that of its opcode
(R31, R101). -/
abbrev recordValid (r : DecodedInstruction) : Prop :=
  r.byteLength = instrLength r.opcode ∧
  r.byteLength = 1 + r.format.operandBytes ∧
  r.dst.isSome = hasDst r.format ∧
  r.src.isSome = hasSrc r.format ∧
  r.rp.map PairField.ctx = pairContext r.format ∧
  r.cc.isSome = hasCond r.format ∧
  r.rstn.isSome = (r.format == .rst) ∧
  r.imm8.isSome = (r.byteLength == 2) ∧
  r.imm16.isSome = (r.byteLength == 3)

/-- No gaps, no overlaps (40_decode_engine.md R132): the records follow one another from address `a`, each where the one
before it ends, and the last ends at `stop`; all additions modulo 2^16 (R31). -/
def gapless : Word → List DecodedInstruction → Word → Prop
  | a, [], stop => a = stop
  | a, r :: rs, stop => r.address = a ∧ gapless (a + BitVec.ofNat 16 r.byteLength) rs stop

/-! ### The invariant -/

/-- How many bytes of the instruction in flight have been read, in the phases before the end of a failed pass
(10_state.md R36 (a)). -/
def inFlight : Phase → Nat
  | .opc | .done | .err => 0
  | .op1 => 1
  | .op2 => 2

/-- What every step keeps: the stream and a stream waiting at the `start` pin are byte streams; the cursor is inside the
stream and is where R36 (a) says; a phase that waits for an operand byte has the latches R27 and R28 say it has written,
and they hold the stream's own bytes; a failure is recorded exactly in ERR, at the address R257 says; `err_valid` and
`out_valid` mean what R33 says; every record is valid, and those of this pass leave no gap up to `pc`. -/
structure State.Inv (s : State) : Prop where
  stream_ok    : s.stream.isStream
  start_ok     : ∀ m, s.start = some m → Memory.isStream m
  cursor_le    : s.cursor ≤ s.stream.length
  cursor_pc    : s.phase ≠ .err → streamAddress s.cursor = s.pc + BitVec.ofNat 16 (inFlight s.phase)
  op1_latched  : s.phase = .op1 →
    ∃ op, s.opc = some op ∧ 1 ≤ nops op ∧ 1 ≤ s.cursor ∧ s.stream.read (s.cursor - 1) = some op
  op2_latched  : s.phase = .op2 →
    ∃ op low, s.opc = some op ∧ s.lo = some low ∧ nops op = 2 ∧ 2 ≤ s.cursor ∧
      s.stream.read (s.cursor - 2) = some op ∧ s.stream.read (s.cursor - 1) = some low
  done_at_end  : s.phase = .done → s.cursor = s.stream.length
  err_iff      : s.phase = .err ↔ s.err.isSome = true
  err_value    : ∀ e, s.err = some e → e.address = s.pc ∧ s.opc = some e.opcode ∧ 1 ≤ nops e.opcode ∧
    s.cursor = s.stream.length ∧
    (streamAddress s.cursor = s.pc + 1 ∨ streamAddress s.cursor = s.pc + 2 ∧ nops e.opcode = 2)
  errValid_err : s.errValid = true → s.phase = .err
  out_is_last  : ∀ r, s.outRec = some r → s.phase = .opc ∧ s.emitted.getLast? = some r
  base_le      : s.passBase ≤ s.emitted.length
  records_ok   : ∀ r ∈ s.emitted, recordValid r
  no_gap       : gapless 0 s.passRecords s.pc

/-! ### The terms claims are stated in -/

/-- The block may take a step on a stream event: it was started and no `start` is pending (R281, R280). -/
def State.ready (s : State) : Prop := s.start = none ∧ s.started = true

/-- The machine has no step here: not started, or in a terminal phase, and no `start` pending (R127, R281). -/
def State.halted (s : State) : Prop :=
  s.start = none ∧ (s.started = false ∨ s.phase = .done ∨ s.phase = .err)

/-- The pass on a stream just begun by `start` with the bytes `bs` (R280, R282). -/
def State.startedOn (s : State) (bs : List Byte) : State := s.beginPass (Memory.ofBytes bs)

/-- `k` steps, stopping at the first fault or refusal: `Host.Core.run` of this machine. -/
def runSteps : Nat → State → Result
  | 0, s => .next s
  | k + 1, s =>
    match step s with
    | .next t => runSteps k t
    | .fault r => .fault r
    | .refused r => .refused r

/-- `s` after the step that consumes the last byte of an instruction of `len` bytes and emits `r`, with every field that no
rule names left as it was (R121 to R124, R27, R28). -/
def State.recorded (s : State) (len : Nat) (r : DecodedInstruction) : State :=
  { s with
    pc := BitVec.ofNat 16 (s.pc.toNat + len)
    phase := .opc
    cursor := s.cursor + 1
    outRec := some r
    errValid := false
    emitted := s.emitted ++ [r] }

end Sys2Proof.Machine
end

