-- ==== Sys2Proof/Certificates/Slice0/Obligations.lean ====
section
/-! DEFINITION. The statements for the provers. `State.recorded` (Safety.lean) is the state after an emitted record, every
other field unchanged, so an equation with it states the result and the frame at once. Statements about the decode core
hold for every value of the parameters `P` where they name one; the machine runs at `Config.params`. A rule that the spec
marks [decision], [derived] or [from general knowledge] is the spec's own inference: a statement that rests on one says so
and has basis 'derived'. The opcode values themselves are such an inference (93 G1, log entry 9). -/

open Sys2Proof Sys2Proof.Machine

/-! ### The decode core -/

/-- The field selectors take op[5:3], op[2:0], op[5:4] (30_encoding.md R70); the three tables name every code (R71 to R73,
10_state.md R21 to R23). That `registerName` has no `err` result is the spec's inference (R71 [derived], 90_conflicts.md
C4). -/
def Obligations.FieldSelectorsAndTables : Prop :=
  (∀ op : Byte, (fieldP op).toNat = op.toNat / 8 % 8 ∧ (fieldS op).toNat = op.toNat % 8 ∧
    (fieldRP op).toNat = op.toNat / 16 % 4) ∧
  (∀ c : BitVec 3, registerName c =
    if c = 0 then .b else if c = 1 then .c else if c = 2 then .d else if c = 3 then .e
    else if c = 4 then .h else if c = 5 then .l else if c = 6 then .m else .a) ∧
  (∀ (c : BitVec 2) (ctx : PairContext), pairName c ctx =
    if c = 0 then .bc else if c = 1 then .de else if c = 2 then .hl else if ctx = .spCtx then .sp else .psw) ∧
  (∀ c : BitVec 3, conditionName c =
    if c = 0 then .nz else if c = 1 then .z else if c = 2 then .nc else if c = 3 then .c
    else if c = 4 then .po else if c = 5 then .pe else if c = 6 then .p else .m)

/-- The predicates are as R74 and R75 define them, both guards hold for every opcode, and a range whose guard is false falls
through to the next candidate (R91). The predicates are the spec's decision D8. -/
def Obligations.GuardsHoldAndFallThrough : Prop :=
  (∀ c : BitVec 3, isRegisterCode c = true ↔ c ≠ 6) ∧
  (∀ op : Byte, (hasValidDestination op = true ↔ isRegisterCode (fieldP op) = true ∨ fieldP op = 6) ∧
    (hasValidSource op = true ↔ isRegisterCode (fieldS op) = true ∨ fieldS op = 6) ∧
    hasValidDestination op = true ∧ hasValidSource op = true) ∧
  (∀ (mask value : Byte) (guard : Byte → Bool) (d : Byte → Decoded) (rest : List (Byte → Option Decoded)) (op : Byte),
    guard op = false →
      (guardedRange mask value guard d :: rest).findSome? (fun c => c op) = rest.findSome? (fun c => c op))

/-- The length classifier: one operand byte for exactly the 18 opcodes of R81, two for exactly the 26, none for the others;
and the decision list gives the same count whatever the parameters. The sets are the spec's inference (R81 [derived]). -/
def Obligations.LengthClassifierSets : Prop :=
  (∀ op : Byte, nops op = 1 ↔
    op ∈ ([0x06, 0x0E, 0x16, 0x1E, 0x26, 0x2E, 0x36, 0x3E, 0xC6, 0xCE, 0xD6, 0xDE, 0xE6, 0xEE, 0xF6, 0xFE, 0xD3, 0xDB] :
      List Byte)) ∧
  (∀ op : Byte, nops op = 2 ↔
    op ∈ ([0x01, 0x11, 0x21, 0x31, 0x22, 0x2A, 0x32, 0x3A, 0xC2, 0xCA, 0xD2, 0xDA, 0xE2, 0xEA, 0xF2, 0xFA, 0xC3,
      0xC4, 0xCC, 0xD4, 0xDC, 0xE4, 0xEC, 0xF4, 0xFC, 0xCD] : List Byte)) ∧
  (∀ op : Byte, nops op ≤ Config.maxOperandBytes ∧ instrLength op = 1 + nops op) ∧
  (∀ (P : Params) (op : Byte), (decodeOp P op).nops = nops op)

/-- Every opcode is covered by exactly one of the 84 rows of opcode_table.json, and that row's mnemonic, format, kind and
operand-byte count are the decision list's (R92 [derived]). -/
def Obligations.TableRowsPartitionOpcodes : Prop :=
  opcodeTable.length = 84 ∧
  ∀ op : Byte, ∃ row ∈ opcodeTable, row.covers op = true ∧ (opcodeTable.filter fun r => r.covers op) = [row] ∧
    (decodeOp Config.params op).mnemonic = row.mnemonic ∧ (decodeOp Config.params op).format = row.format ∧
    (decodeOp Config.params op).kind = row.kind ∧ (decodeOp Config.params op).nops = row.operandBytes

/-- The three kinds are disjoint and cover all opcodes: ALIAS is `NOP_ALIAS_SET`, UNKNOWN its complement within the twelve
unused opcodes, DEFINED everything else (R85, R102 [derived]), for every legal value of the parameter; at the values of this
hardware the UNKNOWN opcodes are the five R88 lists (the spec's decisions D4 and D5, log entries 6 and 9). -/
def Obligations.KindsPartitionOpcodes : Prop :=
  Config.params.unknownSet = [0xCB, 0xD9, 0xDD, 0xED, 0xFD] ∧
  ∀ P : Params, P.wf → ∀ op : Byte,
    ((decodeOp P op).kind = .aliased ↔ op ∈ P.nopAliasSet) ∧
    ((decodeOp P op).kind = .unknown ↔ op ∈ P.unknownSet) ∧
    ((decodeOp P op).kind = .defined ↔ op ∉ Config.unusedOpcodes)

/-- 0x76 is HLT although it lies in the MOV range, and every other opcode of that range, memory forms included, is MOV with
its two fields (R90). -/
def Obligations.HltIsNotMov : Prop :=
  ∀ P : Params,
    decodeOp P 0x76 = { kind := .defined, mnemonic := .hlt, format := .none, nops := 0 } ∧
    ∀ op : Byte, op.toNat / 64 = 1 → op ≠ 0x76 →
      decodeOp P op =
        { kind := .defined, mnemonic := .mov, format := .regPRegS, nops := 0,
          dst := some (registerName (fieldP op)), src := some (registerName (fieldS op)) }

/-- An unknown opcode gives the fallback record, consumes only its own byte and the pass goes on with the next one
(60_exceptions.md R251). -/
def Obligations.UnknownOpcodeIsARecord : Prop :=
  ∀ P : Params, P.wf → ∀ op ∈ P.unknownSet, ∀ (pc : Word) (rest : List Byte),
    passFrom P pc (op :: rest) =
      consRecord
        { address := pc, opcode := op, kind := .unknown, mnemonic := .unknown, format := .unknown,
          byteLength := 1, operands := [.opcode op] }
        (passFrom P (pc + 1) rest)

/-- A two-byte operand is `low + (high << 8)`, and its first byte in the stream is the low one (20_memory.md R53): for the
assembly itself; for every opcode with two operand bytes, whose record in a pass over the bytes `op, b1, b2` holds
`b1 + b2 * 256`; for a decoded address (JMP) and a decoded data word (LXI); and the other way round for the encoder. That
0xC3 is JMP is the source's own example; that 0x21 is LXI H is the spec's general knowledge (R152, 93 G1; PRESUMED, log entry
9), and the encoder is the model's own. -/
def Obligations.WordsAreLittleEndian : Prop :=
  (∀ low high : Byte, (wordOf low high).toNat = low.toNat + high.toNat * 256) ∧
  (∀ w : Word, wordOf (lowByte w) (highByte w) = w) ∧
  wordOf 0x34 0x12 = 0x1234 ∧
  (∀ (P : Params) (pc : Word) (op b1 b2 : Byte) (rest : List Byte), (decodeOp P op).nops = 2 →
    ∃ r p w, passFrom P pc (op :: b1 :: b2 :: rest) = consRecord r p ∧
      r.imm16 = some w ∧ w.toNat = b1.toNat + b2.toNat * 256) ∧
  (∀ (b1 b2 : Byte) (rest : List Byte), ∃ w : Word, w.toNat = b1.toNat + b2.toNat * 256 ∧
    decode (0xC3 :: b1 :: b2 :: rest) = .ok (.jmp w, rest) ∧
    decode (0x21 :: b1 :: b2 :: rest) = .ok (.lxi .hl w, rest)) ∧
  (∀ (w : Word) (b1 b2 : Byte), encode (.jmp w) = [0xC3, b1, b2] → w.toNat = b1.toNat + b2.toNat * 256)

/-- Decoding the encoding of a well-formed instruction gives it back, whatever bytes follow. -/
def Obligations.DecodeEncodeRoundTrip : Prop :=
  ∀ (i : Instr) (rest : List Byte), i.wellFormed = true → decode (encode i ++ rest) = .ok (i, rest)

/-- What the decoder accepts is a well-formed instruction whose encoding is the bytes it consumed. -/
def Obligations.EncodeDecodeBack : Prop :=
  ∀ (bytes rest : List Byte) (i : Instr), decode bytes = .ok (i, rest) →
    i.wellFormed = true ∧ encode i ++ rest = bytes

/-- Words of each family, written from the spec's bit patterns, decode to their instructions: MOV M,C (R150), DCR A (R175),
ANI (R194), JP (R211), POP PSW (R235), a NOP alias (R244) and an unknown opcode (R245). The bit patterns are the spec's own
inference (93 G1, log entry 9); which opcodes are aliases and which are unknown are its decisions D4 and D5 (log entry 6). -/
def Obligations.SampleWordsDecode : Prop :=
  decode [0b01110001] = .ok (.mov .m .c, []) ∧
  decode [0b00111101] = .ok (.dcr .a, []) ∧
  decode [0b11100110, 0x0F] = .ok (.ani 0x0F, []) ∧
  decode [0b11110010, 0x34, 0x12] = .ok (.jp 0x1234, []) ∧
  decode [0b11110001] = .ok (.pop .psw, []) ∧
  decode [0b00110000] = .ok (.nopAlias 6, []) ∧
  decode [0b11101101] = .ok (.unknownED, [])

/-- The length and the classification depend on the opcode byte alone (R78 [derived]). -/
def Obligations.LengthDependsOnOpcodeAlone : Prop :=
  ∀ (op : Byte) (bs bs' rest rest' : List Byte) (i i' : Instr),
    decode (op :: bs) = .ok (i, rest) → decode (op :: bs') = .ok (i', rest') →
      (encode i).length = (encode i').length ∧ (encode i).length = instrLength op ∧ i.opcode = op ∧ i'.opcode = op

/-- The record built from a decoded value has exactly the fields its format makes valid, the others hold no value (10_state.md
R43, the spec's decision D17), and the length of its opcode, for every value of the parameters. -/
def Obligations.RecordsValidForEveryParameter : Prop :=
  ∀ (P : Params) (pc : Word) (op b1 b2 : Byte), recordValid (mkrec P pc op (decodeOp P op) b1 b2)

/-- `MOV_TEXT_ORDER` changes nothing but the order of MOV's two operands (R97, the spec's decision D9). -/
def Obligations.MovOrderIsTextOnly : Prop :=
  ∀ (P : Params) (pc : Word) (op b1 b2 : Byte),
    let P1 : Params := { P with movTextOrder := .dstSrc }
    let P2 : Params := { P with movTextOrder := .srcDst }
    let r1 := mkrec P1 pc op (decodeOp P1 op) b1 b2
    let r2 := mkrec P2 pc op (decodeOp P2 op) b1 b2
    r2 = { r1 with operands := r2.operands } ∧
    (r1.mnemonic ≠ .mov → r1 = r2) ∧
    (r1.mnemonic = .mov → ∃ x y, r1.dst = some x ∧ r1.src = some y ∧
      r1.operands = [.reg x, .reg y] ∧ r2.operands = [.reg y, .reg x])

/-! ### The instructions: each completes, with the record its rule gives and nothing else changed -/

/-- MOV (41_data_transfer.md R150), every form the spec gives it; operands in the order `MOV_TEXT_ORDER` = DST_SRC
(log entry 7). -/
def Obligations.MovRecord : Prop :=
  ∀ (dst src : Register) (s : State), ¬(dst = .m ∧ src = .m) →
    exec (.mov dst src) s = .next (s.recorded 1
      { address := s.pc, opcode := 0b01#2 ++ dst.code ++ src.code, kind := .defined, mnemonic := .mov,
        format := .regPRegS, byteLength := 1, dst := some dst, src := some src, operands := [.reg dst, .reg src] })

/-- MVI (R151). -/
def Obligations.MviRecord : Prop :=
  ∀ (dst : Register) (imm : Byte) (s : State),
    exec (.mvi dst imm) s = .next (s.recorded 2
      { address := s.pc, opcode := 0b00#2 ++ dst.code ++ 0b110#3, kind := .defined, mnemonic := .mvi,
        format := .regPImm8, byteLength := 2, dst := some dst, imm8 := some imm, operands := [.reg dst, .imm8 imm] })

/-- LXI (R152): pair code 3 is SP. -/
def Obligations.LxiRecord : Prop :=
  ∀ (imm : Word) (s : State),
    ∀ row ∈ ([(.bc, 0, .bc), (.de, 1, .de), (.hl, 2, .hl), (.sp, 3, .sp)] : List (SpPair × BitVec 2 × PairName)),
    exec (.lxi row.1 imm) s = .next (s.recorded 3
      { address := s.pc, opcode := 0b00#2 ++ row.2.1 ++ 0b0001#4, kind := .defined, mnemonic := .lxi,
        format := .pairSpImm16, byteLength := 3, rp := some ⟨row.2.1, .spCtx⟩, imm16 := some imm,
        operands := [.pair row.2.2, .imm16 imm] })

/-- LDA, STA, LHLD, SHLD, JMP, CALL: the forms with a direct address (R154 to R157, R210, R212); no access is made at the
address and it never reaches `pc`. -/
def Obligations.DirectAddressRecords : Prop :=
  ∀ (addr : Word) (s : State),
    ∀ row ∈ ([(.lda addr, .lda, 0x3A), (.sta addr, .sta, 0x32), (.lhld addr, .lhld, 0x2A), (.shld addr, .shld, 0x22),
      (.jmp addr, .jmp, 0xC3), (.call addr, .call, 0xCD)] : List (Instr × Mnemonic × Byte)),
    exec row.1 s = .next (s.recorded 3
      { address := s.pc, opcode := row.2.2, kind := .defined, mnemonic := row.2.1, format := .addr16,
        byteLength := 3, imm16 := some addr, operands := [.addr addr] })

/-- LDAX and STAX (R158, R159): pair codes 0 and 1 only. -/
def Obligations.LdaxStaxRecords : Prop :=
  ∀ (s : State),
    ∀ row ∈ ([(.ldax .bc, .ldax, 0x0A, 0, .bc), (.ldax .de, .ldax, 0x1A, 1, .de), (.stax .bc, .stax, 0x02, 0, .bc),
      (.stax .de, .stax, 0x12, 1, .de)] : List (Instr × Mnemonic × Byte × BitVec 2 × PairName)),
    exec row.1 s = .next (s.recorded 1
      { address := s.pc, opcode := row.2.2.1, kind := .defined, mnemonic := row.2.1, format := .pairBd,
        byteLength := 1, rp := some ⟨row.2.2.2.1, .spCtx⟩, operands := [.pair row.2.2.2.2] })

/-- The register and memory forms of ADD, ADC, SUB, SBB, ANA, XRA, ORA, CMP (R170 to R173, R190 to R193); op[5:3] is the
operation, so `dst` holds no value. -/
def Obligations.AluRegisterRecords : Prop :=
  ∀ (src : Register) (s : State),
    ∀ row ∈ ([(.add src, .add, 0b10000), (.adc src, .adc, 0b10001), (.sub src, .sub, 0b10010), (.sbb src, .sbb, 0b10011),
      (.ana src, .ana, 0b10100), (.xra src, .xra, 0b10101), (.ora src, .ora, 0b10110), (.cmp src, .cmp, 0b10111)] :
      List (Instr × Mnemonic × BitVec 5)),
    exec row.1 s = .next (s.recorded 1
      { address := s.pc, opcode := row.2.2 ++ src.code, kind := .defined, mnemonic := row.2.1, format := .regS,
        byteLength := 1, src := some src, operands := [.reg src] })

/-- INR and DCR (R174, R175): the register is in the primary field. -/
def Obligations.InrDcrRecords : Prop :=
  ∀ (dst : Register) (s : State),
    ∀ row ∈ ([(.inr dst, .inr, 0b100), (.dcr dst, .dcr, 0b101)] : List (Instr × Mnemonic × BitVec 3)),
    exec row.1 s = .next (s.recorded 1
      { address := s.pc, opcode := 0b00#2 ++ dst.code ++ row.2.2, kind := .defined, mnemonic := row.2.1,
        format := .regP, byteLength := 1, dst := some dst, operands := [.reg dst] })

/-- INX, DCX and DAD (R176 to R178): pair code 3 is SP, never PSW. -/
def Obligations.PairArithmeticRecords : Prop :=
  ∀ (s : State),
    ∀ p ∈ ([(.bc, 0, .bc), (.de, 1, .de), (.hl, 2, .hl), (.sp, 3, .sp)] : List (SpPair × BitVec 2 × PairName)),
    ∀ row ∈ ([(.inx p.1, .inx, 0b0011), (.dcx p.1, .dcx, 0b1011), (.dad p.1, .dad, 0b1001)] :
      List (Instr × Mnemonic × BitVec 4)),
    exec row.1 s = .next (s.recorded 1
      { address := s.pc, opcode := 0b00#2 ++ p.2.1 ++ row.2.2, kind := .defined, mnemonic := row.2.1,
        format := .pairSp, byteLength := 1, rp := some ⟨p.2.1, .spCtx⟩, operands := [.pair p.2.2] })

/-- The immediate forms ADI, ACI, SUI, SBI, ANI, XRI, ORI, CPI (R180 to R183, R194 to R197) and the port forms IN and OUT
(R238, R239): one operand byte, unsigned. -/
def Obligations.OneByteOperandRecords : Prop :=
  ∀ (v : Byte) (s : State),
    ∀ row ∈ ([(.adi v, .adi, 0xC6), (.aci v, .aci, 0xCE), (.sui v, .sui, 0xD6), (.sbi v, .sbi, 0xDE), (.ani v, .ani, 0xE6),
      (.xri v, .xri, 0xEE), (.ori v, .ori, 0xF6), (.cpi v, .cpi, 0xFE), (.inPort v, .inPort, 0xDB),
      (.outPort v, .outPort, 0xD3)] : List (Instr × Mnemonic × Byte)),
    exec row.1 s = .next (s.recorded 2
      { address := s.pc, opcode := row.2.2, kind := .defined, mnemonic := row.2.1, format := .imm8,
        byteLength := 2, imm8 := some v, operands := [.imm8 v] })

/-- The instructions without an operand: RLC, RRC, RAL, RAR, CMA, CMC, STC, DAA (R198 to R204, R179), XCHG, XTHL, SPHL, PCHL,
RET, EI, DI, HLT, NOP (R160, R236, R237, R217, R214, R240 to R243). HLT does not stop the block, EI and DI change nothing
in it. -/
def Obligations.NoOperandRecords : Prop :=
  ∀ (s : State),
    ∀ row ∈ ([(.rlc, .rlc, 0x07), (.rrc, .rrc, 0x0F), (.ral, .ral, 0x17), (.rar, .rar, 0x1F), (.cma, .cma, 0x2F),
      (.cmc, .cmc, 0x3F), (.stc, .stc, 0x37), (.daa, .daa, 0x27), (.xchg, .xchg, 0xEB), (.xthl, .xthl, 0xE3),
      (.sphl, .sphl, 0xF9), (.pchl, .pchl, 0xE9), (.ret, .ret, 0xC9), (.ei, .ei, 0xFB), (.di, .di, 0xF3),
      (.hlt, .hlt, 0x76), (.nop, .nop, 0x00)] : List (Instr × Mnemonic × Byte)),
    exec row.1 s = .next (s.recorded 1
      { address := s.pc, opcode := row.2.2, kind := .defined, mnemonic := row.2.1, format := .none, byteLength := 1 })

/-- The conditional jumps JNZ to JM and calls CNZ to CM (44_branch.md R211, R213): the condition is named, not evaluated, and
the branch is not taken. -/
def Obligations.ConditionalAddressRecords : Prop :=
  ∀ (addr : Word) (s : State),
    ∀ row ∈ ([(.jnz addr, .jnz, 0xC2, .nz), (.jz addr, .jz, 0xCA, .z), (.jnc addr, .jnc, 0xD2, .nc),
      (.jc addr, .jc, 0xDA, .c), (.jpo addr, .jpo, 0xE2, .po), (.jpe addr, .jpe, 0xEA, .pe), (.jp addr, .jp, 0xF2, .p),
      (.jm addr, .jm, 0xFA, .m), (.cnz addr, .cnz, 0xC4, .nz), (.cz addr, .cz, 0xCC, .z), (.cnc addr, .cnc, 0xD4, .nc),
      (.cc addr, .cc, 0xDC, .c), (.cpo addr, .cpo, 0xE4, .po), (.cpe addr, .cpe, 0xEC, .pe), (.cp addr, .cp, 0xF4, .p),
      (.cm addr, .cm, 0xFC, .m)] : List (Instr × Mnemonic × Byte × Condition)),
    exec row.1 s = .next (s.recorded 3
      { address := s.pc, opcode := row.2.2.1, kind := .defined, mnemonic := row.2.1, format := .condAddr16,
        byteLength := 3, cc := some row.2.2.2, imm16 := some addr, operands := [.addr addr] })

/-- The conditional returns RNZ to RM (R215): length 1, no operand in the list. -/
def Obligations.ConditionalReturnRecords : Prop :=
  ∀ (s : State),
    ∀ row ∈ ([(.rnz, .rnz, 0xC0, .nz), (.rz, .rz, 0xC8, .z), (.rnc, .rnc, 0xD0, .nc), (.rc, .rc, 0xD8, .c),
      (.rpo, .rpo, 0xE0, .po), (.rpe, .rpe, 0xE8, .pe), (.rp, .rp, 0xF0, .p), (.rm, .rm, 0xF8, .m)] :
      List (Instr × Mnemonic × Byte × Condition)),
    exec row.1 s = .next (s.recorded 1
      { address := s.pc, opcode := row.2.2.1, kind := .defined, mnemonic := row.2.1, format := .cond,
        byteLength := 1, cc := some row.2.2.2 })

/-- RST (R216): the raw restart number, no vector address. -/
def Obligations.RstRecord : Prop :=
  ∀ (n : BitVec 3) (s : State),
    exec (.rst n) s = .next (s.recorded 1
      { address := s.pc, opcode := 0b11#2 ++ n ++ 0b111#3, kind := .defined, mnemonic := .rst, format := .rst,
        byteLength := 1, rstn := some n, operands := [.rstn n] })

/-- PUSH and POP (45_stack_io_control.md R234, R235): pair code 3 is PSW, not SP. -/
def Obligations.PushPopRecords : Prop :=
  ∀ (s : State),
    ∀ p ∈ ([(.bc, 0, .bc), (.de, 1, .de), (.hl, 2, .hl), (.psw, 3, .psw)] : List (PswPair × BitVec 2 × PairName)),
    ∀ row ∈ ([(.push p.1, .push, 0b0101), (.pop p.1, .pop, 0b0001)] : List (Instr × Mnemonic × BitVec 4)),
    exec row.1 s = .next (s.recorded 1
      { address := s.pc, opcode := 0b11#2 ++ p.2.1 ++ row.2.2, kind := .defined, mnemonic := row.2.1,
        format := .pairPsw, byteLength := 1, rp := some ⟨p.2.1, .pswCtx⟩, operands := [.pair p.2.2] })

/-- NOP alias (R244): the record of NOP with kind ALIAS, for each opcode 00xxx000 but 0x00. -/
def Obligations.NopAliasRecord : Prop :=
  ∀ (x : BitVec 3) (s : State), x ≠ 0 →
    exec (.nopAlias x) s = .next (s.recorded 1
      { address := s.pc, opcode := 0b00#2 ++ x ++ 0b000#3, kind := .aliased, mnemonic := .nop, format := .none,
        byteLength := 1 })

/-- UNKNOWN (R245): the fallback record with the raw opcode as its operand; only the opcode byte is consumed. -/
def Obligations.UnknownRecords : Prop :=
  ∀ (s : State),
    ∀ row ∈ ([(.unknownCB, 0xCB), (.unknownD9, 0xD9), (.unknownDD, 0xDD), (.unknownED, 0xED), (.unknownFD, 0xFD)] :
      List (Instr × Byte)),
    exec row.1 s = .next (s.recorded 1
      { address := s.pc, opcode := row.2, kind := .unknown, mnemonic := .unknown, format := .unknown, byteLength := 1,
        operands := [.opcode row.2] })

/-- The family rules and the decode core agree: the record an instruction's own meaning emits is the record R124 builds from
the decision list's answer for its opcode and its operand bytes. -/
def Obligations.MeaningsAgreeWithDecodeCore : Prop :=
  ∀ (i : Instr) (s : State), i.wellFormed = true →
    exec i s = .next (s.recorded (encode i).length
      (mkrec Config.params s.pc i.opcode (decodeOp Config.params i.opcode)
        (i.operandBytes.getD 0 0) (i.operandBytes.getD 1 0)))

/-- `pc` advances by the instruction's length modulo 2^16 whatever the instruction is: no branch is taken (R218 for the rules
of 44_branch.md, R25 for the others), no address or operand reaches `pc`, and every instruction leaves the stream, the
latches and the failure record alone. The modulus is the spec's decision D2 (log entry 8), that the latches keep their
values is its decision D12 (R27, R28; log entry 2), that the stream is not written its inference (R57 [derived]). -/
def Obligations.PcAdvancesByLengthAlways : Prop :=
  ∀ (i : Instr) (s : State), ∃ t, exec i s = .next t ∧
    t.pc.toNat = (s.pc.toNat + (encode i).length) % 65536 ∧
    t.stream = s.stream ∧ t.opc = s.opc ∧ t.lo = s.lo ∧ t.err = s.err ∧ t.start = s.start ∧ t.started = s.started ∧
    t.passBase = s.passBase ∧ ∃ r, t.outRec = some r ∧ t.emitted = s.emitted ++ [r] ∧ r.address = s.pc

/-! ### Reset, start and the terminal phases -/

/-- After reset every piece of state the spec gives a value holds it, the five status outputs among them (10_state.md R38). -/
def Obligations.ResetValues : Prop :=
  State.reset.pc = 0x0000 ∧ State.reset.phase = .opc ∧ State.reset.opc = none ∧ State.reset.lo = none ∧
  State.reset.err = none ∧ State.reset.cursor = 0 ∧
  State.reset.busy = false ∧ State.reset.done = false ∧ State.reset.error = false ∧ State.reset.outValid = false ∧
  State.reset.errValid = false

/-- `start` sets every piece of state to its reset value, from any state at all, and takes effect before an event is
consumed (70_reset_and_hazards.md R280); the pulse is taken, so that no `start` is pending after it, and the block is
started; the pass it abandons leaves its records emitted and adds none, and the new one begins at position 0 of the stream
then supplied (R282). The spec's decision D13; that it is a transition of its own is log entry 4. -/
def Obligations.StartBeginsANewPass : Prop :=
  ∀ (s : State) (m : Memory), s.start = some m → ∃ t, step s = .next t ∧
    t.pc = 0 ∧ t.phase = .opc ∧ t.opc = none ∧ t.lo = none ∧ t.err = none ∧ t.cursor = 0 ∧ t.stream = m ∧
    t.busy = false ∧ t.done = false ∧ t.error = false ∧ t.outValid = false ∧ t.errValid = false ∧
    t.start = none ∧ t.started = true ∧ t.emitted = s.emitted ∧ t.passRecords = []

/-- Before the first `start` the block takes no step (R281, the spec's decision D13; log entries 4 and 11). -/
def Obligations.NoStepBeforeStart : Prop :=
  ∀ s t : State, s.start = none → s.started = false → step s ≠ .next t

/-- DONE and ERR are terminal: there is no further step, and only `start` leaves them (R127, the spec's decision D13; log
entry 11). -/
def Obligations.TerminalPhasesHaveNoStep : Prop :=
  ∀ s : State, s.phase = .done ∨ s.phase = .err →
    (s.start = none → ∀ t, step s ≠ .next t) ∧
    (∀ t, step s = .next t → ∃ m, s.start = some m ∧ t.phase = .opc)

/-! ### The step, event by event -/

/-- Phase OPC, a byte (40_decode_engine.md R121). -/
def Obligations.OpcodeByteStep : Prop :=
  ∀ (s : State) (b : Byte), s.ready → s.phase = .opc → s.event = .byte b →
    ((decodeOp Config.params b).nops = 0 →
      step s = .next (s.recorded 1 (mkrec Config.params s.pc b (decodeOp Config.params b) 0 0))) ∧
    ((decodeOp Config.params b).nops > 0 →
      step s = .next { s with opc := some b, phase := .op1, cursor := s.cursor + 1, outRec := none, errValid := false })

/-- Phase OP1, a byte (R122). -/
def Obligations.FirstOperandByteStep : Prop :=
  ∀ (s : State) (op b : Byte), s.ready → s.phase = .op1 → s.opc = some op → s.event = .byte b →
    ((decodeOp Config.params op).nops = 1 →
      (mkrec Config.params s.pc op (decodeOp Config.params op) b 0).imm8 = some b ∧
      step s = .next (s.recorded 2 (mkrec Config.params s.pc op (decodeOp Config.params op) b 0))) ∧
    ((decodeOp Config.params op).nops = 2 →
      step s = .next { s with lo := some b, phase := .op2, cursor := s.cursor + 1, outRec := none, errValid := false })

/-- Phase OP2, a byte (R123). -/
def Obligations.SecondOperandByteStep : Prop :=
  ∀ (s : State) (op low b : Byte), s.ready → s.phase = .op2 → s.opc = some op → s.lo = some low →
    (decodeOp Config.params op).nops = 2 → s.event = .byte b →
      (mkrec Config.params s.pc op (decodeOp Config.params op) low b).imm16 = some (wordOf low b) ∧
      step s = .next (s.recorded 3 (mkrec Config.params s.pc op (decodeOp Config.params op) low b))

/-- The operand phases ask nothing more of the latched opcode (R128 [derived]): in phase OP1 a byte that does not complete the
instruction is latched and phase OP2 follows, and in phase OP2 a byte emits the `mkrec` record and advances `pc` by 3. Both
are stated for every opcode, also for those that no run latches there (log entry 3); for an opcode without operand bytes the
record takes nothing from `lo` (R124), so there `lo` may hold no value. -/
def Obligations.OperandPhasesTakeAnyOpcode : Prop :=
  ∀ (s : State) (op b : Byte), s.ready → s.opc = some op → s.event = .byte b →
    (s.phase = .op1 → (decodeOp Config.params op).nops ≠ 1 →
      step s = .next { s with lo := some b, phase := .op2, cursor := s.cursor + 1, outRec := none, errValid := false }) ∧
    (∀ low, s.phase = .op2 → s.lo = some low ∨ (decodeOp Config.params op).nops = 0 →
      step s = .next (s.recorded 3 (mkrec Config.params s.pc op (decodeOp Config.params op) low b)))

/-- Where the machine has no step: with no `start` pending it steps exactly when it was started, is in no terminal phase, and
the latches the step reads hold a value. A latch without one is read by no step, whose fault says so (93 U7: 'fault if read',
'never a value'; log entry 3): `opc` by every step of phases OP1 and OP2, `lo` by the byte step of phase OP2 for an opcode
with operand bytes. The other two reasons are R281 and R127 (the spec's decision D13; log entry 11). -/
def Obligations.StepsExactlyWhereLatchesAreWritten : Prop :=
  ∀ s : State, s.start = none →
    ((∃ t, step s = .next t) ↔ s.started = true ∧
      (s.phase = .opc ∨ (s.phase = .op1 ∧ s.opc.isSome = true) ∨
        (s.phase = .op2 ∧ ∃ op, s.opc = some op ∧
          (s.lo.isSome = true ∨ s.event = .endOfStream ∨ nops op = 0)))) ∧
    (s.started = true → (s.phase = .op1 ∨ s.phase = .op2) → s.opc = none → step s = .fault .latchUnwritten) ∧
    (∀ op b, s.started = true → s.phase = .op2 → s.opc = some op → 1 ≤ nops op → s.lo = none → s.event = .byte b →
      step s = .fault .latchUnwritten)

/-- Phase OPC, `End`: the pass ends in success and nothing is emitted (R125). -/
def Obligations.EndAtBoundarySucceeds : Prop :=
  ∀ s : State, s.ready → s.phase = .opc → s.event = .endOfStream →
    step s = .next { s with phase := .done, outRec := none, errValid := false }

/-- Phase OP1 or OP2, `End`: the failure entry. `err` saves `pc` and the opcode, `err_valid` is 1, the phase is ERR, nothing is
emitted and `pc` is not advanced (R126). The byte in `lo` is dropped in that no record holds it; the latch itself keeps its
stale value, which is read from the spec's trace E3 (95_test_vectors.md L2-9; DEDUCED, log entry 2). -/
def Obligations.EndInsideInstructionFails : Prop :=
  ∀ (s : State) (op : Byte), s.ready → s.phase = .op1 ∨ s.phase = .op2 → s.opc = some op → s.event = .endOfStream →
    ∃ t, step s = .next t ∧
      t = { s with err := some ⟨s.pc, op⟩, phase := .err, outRec := none, errValid := true } ∧
      t.errAddr = some s.pc ∧ t.errOpc = some op ∧ t.error = true ∧ t.done = false ∧ t.busy = false

/-- The block never writes the stream; a read of a byte advances the cursor by one, a read at the end advances nothing
(20_memory.md R57 [derived]). A step emits at most one record and never retracts one. -/
def Obligations.StreamIsReadOnly : Prop :=
  ∀ s t : State, s.start = none → step s = .next t →
    t.stream = s.stream ∧
    (∀ b, s.event = .byte b → t.cursor = s.cursor + 1) ∧
    (s.event = .endOfStream → t.cursor = s.cursor ∧ t.event = .endOfStream) ∧
    (t.emitted = s.emitted ∨ ∃ r, t.emitted = s.emitted ++ [r])

/-- The status outputs follow `phase`, and what each step sets and clears. After a step `busy` is 1 exactly when the step read
an opcode with operand bytes, or the first of two operand bytes; `done` exactly when it consumed `End` in phase OPC; `error`
and `err_valid` exactly when it consumed `End` in phase OP1 or OP2; `out_valid` exactly when it emitted a record
(10_state.md R33, the spec's decision D11; log entry 13). In phase OP1 the second case is stated for every opcode but those of
one operand byte, as the `else` of R128 has it; a run latches there only opcodes of one or two. -/
def Obligations.StatusOutputs : Prop :=
  (∀ s : State, (s.busy = true ↔ s.phase = .op1 ∨ s.phase = .op2) ∧ (s.done = true ↔ s.phase = .done) ∧
    (s.error = true ↔ s.phase = .err)) ∧
  ∀ s t : State, step s = .next t →
    (t.busy = true ↔ s.start = none ∧
      ((s.phase = .opc ∧ ∃ b, s.event = .byte b ∧ 1 ≤ nops b) ∨
        (s.phase = .op1 ∧ ∃ op b, s.opc = some op ∧ s.event = .byte b ∧ nops op ≠ 1))) ∧
    (t.done = true ↔ s.start = none ∧ s.phase = .opc ∧ s.event = .endOfStream) ∧
    (t.error = true ↔ s.start = none ∧ (s.phase = .op1 ∨ s.phase = .op2) ∧ s.event = .endOfStream) ∧
    (t.errValid = true ↔ t.error = true) ∧
    (t.outValid = true ↔ t.emitted.length = s.emitted.length + 1)

/-- When the byte at the cursor completes an instruction, the step is that instruction's `exec`, with nothing around it: the
bytes read are the one at the cursor in phase OPC, the latched opcode before it in OP1, both latches before it in OP2. -/
def Obligations.StepRunsDecodedInstruction : Prop :=
  ∀ (s : State) (i : Instr) (b : Byte), s.ready → s.event = .byte b →
    (s.phase = .opc → decode [b] = .ok (i, []) → step s = exec i s) ∧
    (∀ op, s.phase = .op1 → s.opc = some op → decode [op, b] = .ok (i, []) → step s = exec i s) ∧
    (∀ op low, s.phase = .op2 → s.opc = some op → s.lo = some low → decode [op, low, b] = .ok (i, []) →
      step s = exec i s)

/-- A table word placed where the machine fetches is run by the very next step, from any state (log entry 14: the model's own
loading convention). -/
def Obligations.PlacedWordRunsNext : Prop :=
  ∀ (s : State) (nbits w : Nat) (i : Instr), decodeTableWord nbits w = some i →
    step (s.withFetchWord nbits w) = exec i (s.withFetchWord nbits w)

/-- From an instruction boundary with the bytes of a well-formed instruction at the cursor, the machine takes as many steps as
the instruction has bytes and then has emitted exactly its record, with `pc` and the cursor past it. -/
def Obligations.InstructionRunsInItsLength : Prop :=
  ∀ (s : State) (i : Instr), s.ready → s.phase = .opc → i.wellFormed = true →
    (∀ k b, (encode i)[k]? = some b → s.stream.read (s.cursor + k) = some b) →
    ∃ t r, runSteps (encode i).length s = .next t ∧
      r = mkrec Config.params s.pc i.opcode (decodeOp Config.params i.opcode)
        (i.operandBytes.getD 0 0) (i.operandBytes.getD 1 0) ∧
      t.pc.toNat = (s.pc.toNat + (encode i).length) % 65536 ∧ t.phase = .opc ∧
      t.cursor = s.cursor + (encode i).length ∧ t.outRec = some r ∧ t.emitted = s.emitted ++ [r] ∧
      t.stream = s.stream ∧ t.err = s.err ∧ t.passBase = s.passBase ∧ t.ready

/-! ### Invariants -/

/-- The state after reset meets the invariant. -/
def Obligations.ResetMeetsInvariant : Prop := State.reset.Inv

/-- Every step keeps the invariant. -/
def Obligations.StepKeepsInvariant : Prop :=
  ∀ s t : State, s.Inv → step s = .next t → t.Inv

/-- A state that meets the invariant steps unless the spec gives it no step: no latch is read before it is written, no opcode
is refused. -/
def Obligations.InvariantStatesStep : Prop :=
  ∀ s : State, s.Inv → ¬s.halted → ∃ t, step s = .next t

/-- No gaps, no overlaps (R132): the address of each next record of a pass is the address of the one before plus its length,
modulo 2^16. First of the pass function for every stream and parameters, then of every state of the machine that meets the
invariant, where the first record is at address 0 and the last one ends at `pc`. -/
def Obligations.NoGapsBetweenRecords : Prop :=
  (∀ (P : Params) (bytes : List Byte) (k : Nat) (r r' : DecodedInstruction),
    (pass P bytes).1[k]? = some r → (pass P bytes).1[k + 1]? = some r' →
      r'.address.toNat = (r.address.toNat + r.byteLength) % 65536) ∧
  ∀ s : State, s.Inv →
    (∀ r, s.passRecords[0]? = some r → r.address = 0) ∧
    (∀ k r r', s.passRecords[k]? = some r → s.passRecords[k + 1]? = some r' →
      r'.address.toNat = (r.address.toNat + r.byteLength) % 65536) ∧
    (∀ r, s.passRecords.getLast? = some r → s.pc.toNat = (r.address.toNat + r.byteLength) % 65536)

/-- Only an opcode with operand bytes can be truncated, and the failure is precise (60_exceptions.md R250, R257 [derived]): the
records are those before it and `pc` is its address; the failure code is 01 (R252, the spec's decision D16). -/
def Obligations.OnlyOperandTakingOpcodesTruncate : Prop :=
  ∀ s t : State, s.Inv → s.start = none → step s = .next t → t.phase = .err →
    ∃ e, t.err = some e ∧ 1 ≤ nops e.opcode ∧ e.address = t.pc ∧ t.pc = s.pc ∧ t.emitted = s.emitted ∧
      s.errCode = 0b00 ∧ t.errCode = 0b01

/-! ### The whole pass -/

/-- The step machine and the pass function give the same records and the same outcome for every stream (R137 [derived]),
whatever state the `start` finds, within one step more than the stream has bytes; and the pass function truncates an
instruction exactly when fewer bytes follow it than it needs. -/
def Obligations.StepMachineComputesThePass : Prop :=
  (∀ (s : State) (bytes : List Byte), ∃ k t, k ≤ bytes.length + 1 ∧ runSteps k (s.startedOn bytes) = .next t ∧
    t.observation = some (pass Config.params bytes)) ∧
  (∀ (P : Params) (pc : Word) (op : Byte) (rest : List Byte),
    passFrom P pc (op :: rest) = ([], .truncated pc op) ↔ rest.length < (decodeOp P op).nops)

/-- A pass over a stream of N bytes takes at most N + 1 steps (R285 [derived]). -/
def Obligations.PassEndsInTime : Prop :=
  ∀ (s t : State) (bytes : List Byte) (k : Nat), runSteps k (s.startedOn bytes) = .next t → k ≤ bytes.length + 1

/-- The records and the outcome of a pass are a function of the stream alone (R133 [derived]): nothing of the state before
`start` can be seen in it, at any step. -/
def Obligations.PassDependsOnStreamAlone : Prop :=
  ∀ (s s' t : State) (bytes : List Byte) (k : Nat), runSteps k (s.startedOn bytes) = .next t →
    ∃ t', runSteps k (s'.startedOn bytes) = .next t' ∧ t'.passRecords = t.passRecords ∧ t'.outcome = t.outcome ∧
      t'.pc = t.pc ∧ t'.outRec = t.outRec

/-- An empty stream gives no record and success (R131). -/
def Obligations.EmptyStreamSucceeds : Prop :=
  ∀ s : State, ∃ t, runSteps 1 (s.startedOn []) = .next t ∧ t.observation = some ([], .success)
end

