-- ==== Sys2Proof/Laws/Decode.lean ====
section
/-! SUPPORT. Small laws of the decode core: tables and their codes, byte order, and what the decision list does on each opcode
at this hardware's parameters. -/

namespace Sys2Proof

@[simp] theorem registerName_code (r : Register) : registerName r.code = r := by cases r <;> rfl
@[simp] theorem code_registerName (c : BitVec 3) : (registerName c).code = c := by revert c; decide
@[simp] theorem spPairOfCode_code (p : SpPair) : spPairOfCode p.code = p := by cases p <;> rfl
@[simp] theorem code_spPairOfCode (c : BitVec 2) : (spPairOfCode c).code = c := by revert c; decide
@[simp] theorem pswPairOfCode_code (p : PswPair) : pswPairOfCode p.code = p := by cases p <;> rfl
@[simp] theorem code_pswPairOfCode (c : BitVec 2) : (pswPairOfCode c).code = c := by revert c; decide
@[simp] theorem bdPairOfCode_code (p : BdPair) : bdPairOfCode p.code = some p := by cases p <;> rfl

@[simp] theorem lowByte_wordOf (low high : Byte) : lowByte (wordOf low high) = low := by
  apply BitVec.eq_of_toNat_eq
  simp [lowByte, wordOf, BitVec.toNat_add, BitVec.toNat_shiftLeft, Nat.shiftLeft_eq]
  omega

@[simp] theorem highByte_wordOf (low high : Byte) : highByte (wordOf low high) = high := by
  apply BitVec.eq_of_toNat_eq
  simp [highByte, wordOf, BitVec.toNat_add, BitVec.toNat_shiftLeft, Nat.shiftLeft_eq, Nat.shiftRight_eq_div_pow]
  omega

@[simp] theorem wordOf_bytes (w : Word) : wordOf (lowByte w) (highByte w) = w := by
  apply BitVec.eq_of_toNat_eq
  simp [lowByte, highByte, wordOf, BitVec.toNat_add, BitVec.toNat_shiftLeft, Nat.shiftLeft_eq,
    Nat.shiftRight_eq_div_pow]
  omega

/-- `nops` takes three values. -/
theorem nops_cases (op : Byte) : nops op = 0 ∨ nops op = 1 ∨ nops op = 2 := by
  unfold nops; split
  · simp
  · split <;> simp

theorem nops_le (op : Byte) : nops op ≤ Config.maxOperandBytes := by
  have : Config.maxOperandBytes = 2 := rfl
  rcases nops_cases op with h | h | h <;> omega

/-- The decision list but its last two steps: no parameter. -/
theorem decodeOp_split (P : Params) (op : Byte) :
    decodeOp P op =
      (((decisionList ⟨[], .dstSrc⟩).findSome? fun c => c op).or (aliasList P op)).getD unknownDecoded := by
  simp only [decodeOp, decisionList, List.findSome?_cons, List.findSome?_nil]
  repeat (first | rfl | split)
  all_goals simp_all [aliasList]

/-- Where the parameter enters the decision list (R15, R87, R88). -/
theorem decodeOp_eq (P : Params) (op : Byte) :
    decodeOp P op =
      if op ∈ Config.unusedOpcodes then
        if op ∈ P.nopAliasSet then { Decoded.plain .nop .none with kind := .aliased } else unknownDecoded
      else decodeOp Config.params op := by
  have hnone : ∀ op : Byte, ((decisionList ⟨[], .dstSrc⟩).findSome? fun c => c op) = none ↔ op ∈ Config.unusedOpcodes := by
    decide
  have hn := hnone op
  rw [decodeOp_split P, decodeOp_split Config.params]
  cases hc : (decisionList ⟨[], .dstSrc⟩).findSome? fun c => c op with
  | none =>
    rw [hc] at hn
    simp only [Option.none_or, if_pos (hn.mp rfl), aliasList]
    split <;> rfl
  | some d =>
    rw [hc] at hn
    rw [if_neg (by simpa using hn.symm.not)]
    simp

/-- At this hardware's parameters the decision list and the length classifier agree. -/
@[simp] theorem params_nops (op : Byte) : (decodeOp Config.params op).nops = nops op := by
  revert op; decide

/-- At this hardware's parameters every opcode has an instruction, whatever its operand bytes. -/
theorem ofDecoded_isSome (op b1 b2 : Byte) :
    (Instr.ofDecoded op (decodeOp Config.params op) b1 b2).isSome = true := by
  revert op
  have h : ∀ op : Byte,
      (Instr.ofDecoded op (decodeOp Config.params op) b1 b2).isSome =
      (Instr.ofDecoded op (decodeOp Config.params op) 0 0).isSome := by
    intro op
    unfold Instr.ofDecoded
    split <;> simp
  have h0 : ∀ op : Byte, (Instr.ofDecoded op (decodeOp Config.params op) 0 0).isSome = true := by decide
  exact fun op => (h op).trans (h0 op)

/-- The instruction of an opcode has that opcode, whatever its operand bytes. -/
theorem ofDecoded_opcode {op b1 b2 : Byte} {i : Instr}
    (h : Instr.ofDecoded op (decodeOp Config.params op) b1 b2 = some i) : i.opcode = op := by
  have h1 : ∀ d : Decoded, (Instr.ofDecoded op d b1 b2).map Instr.opcode = (Instr.ofDecoded op d 0 0).map Instr.opcode := by
    intro d
    unfold Instr.ofDecoded
    split <;> first | rfl | (rcases d.dst with _ | _ <;> rfl) | (rcases d.rp with _ | _ <;> rfl)
  have h0 : ∀ op : Byte, (Instr.ofDecoded op (decodeOp Config.params op) 0 0).map Instr.opcode = some op := by decide
  have := h1 (decodeOp Config.params op)
  rw [h0, h] at this
  simpa using this

/-- The decoder's answer in terms of the classifier and `ofDecoded`. -/
theorem decode_cons (op : Byte) (rest : List Byte) :
    decode (op :: rest) =
      if rest.length < nops op then .error (.truncated op)
      else match Instr.ofDecoded op (decodeOp Config.params op) (rest.getD 0 0) (rest.getD 1 0) with
        | some i => .ok (i, rest.drop (nops op))
        | none => .error (.noRow op) := by
  simp only [decode, params_nops] <;> rfl

end Sys2Proof
end

