-- ==== Sys2Proof/Laws/PerInstr.lean ====
section
/-! SUPPORT. The family `EncodeLength`: for each constructor of `Instr`, an instruction's encoding has the length its opcode byte
gives it (30_encoding.md R77, R101). -/

namespace Sys2Proof.Laws

/-- An instruction is encoded in as many bytes as the length classifier gives its opcode. -/
def EncodeLength.Statement (i : Instr) : Prop := (encode i).length = instrLength i.opcode

theorem EncodeLength.nop : EncodeLength.Statement .nop := rfl
theorem EncodeLength.rlc : EncodeLength.Statement .rlc := rfl
theorem EncodeLength.rrc : EncodeLength.Statement .rrc := rfl
theorem EncodeLength.ral : EncodeLength.Statement .ral := rfl
theorem EncodeLength.rar : EncodeLength.Statement .rar := rfl
theorem EncodeLength.shld (addr : Word) : EncodeLength.Statement (.shld addr) := rfl
theorem EncodeLength.daa : EncodeLength.Statement .daa := rfl
theorem EncodeLength.lhld (addr : Word) : EncodeLength.Statement (.lhld addr) := rfl
theorem EncodeLength.cma : EncodeLength.Statement .cma := rfl
theorem EncodeLength.sta (addr : Word) : EncodeLength.Statement (.sta addr) := rfl
theorem EncodeLength.stc : EncodeLength.Statement .stc := rfl
theorem EncodeLength.lda (addr : Word) : EncodeLength.Statement (.lda addr) := rfl
theorem EncodeLength.cmc : EncodeLength.Statement .cmc := rfl
theorem EncodeLength.hlt : EncodeLength.Statement .hlt := rfl
theorem EncodeLength.jmp (addr : Word) : EncodeLength.Statement (.jmp addr) := rfl
theorem EncodeLength.adi (imm : Byte) : EncodeLength.Statement (.adi imm) := rfl
theorem EncodeLength.ret : EncodeLength.Statement .ret := rfl
theorem EncodeLength.call (addr : Word) : EncodeLength.Statement (.call addr) := rfl
theorem EncodeLength.aci (imm : Byte) : EncodeLength.Statement (.aci imm) := rfl
theorem EncodeLength.outPort (port : Byte) : EncodeLength.Statement (.outPort port) := rfl
theorem EncodeLength.sui (imm : Byte) : EncodeLength.Statement (.sui imm) := rfl
theorem EncodeLength.inPort (port : Byte) : EncodeLength.Statement (.inPort port) := rfl
theorem EncodeLength.sbi (imm : Byte) : EncodeLength.Statement (.sbi imm) := rfl
theorem EncodeLength.xthl : EncodeLength.Statement .xthl := rfl
theorem EncodeLength.ani (imm : Byte) : EncodeLength.Statement (.ani imm) := rfl
theorem EncodeLength.pchl : EncodeLength.Statement .pchl := rfl
theorem EncodeLength.xchg : EncodeLength.Statement .xchg := rfl
theorem EncodeLength.xri (imm : Byte) : EncodeLength.Statement (.xri imm) := rfl
theorem EncodeLength.di : EncodeLength.Statement .di := rfl
theorem EncodeLength.ori (imm : Byte) : EncodeLength.Statement (.ori imm) := rfl
theorem EncodeLength.sphl : EncodeLength.Statement .sphl := rfl
theorem EncodeLength.ei : EncodeLength.Statement .ei := rfl
theorem EncodeLength.cpi (imm : Byte) : EncodeLength.Statement (.cpi imm) := rfl
theorem EncodeLength.lxi (p : SpPair) (imm : Word) : EncodeLength.Statement (.lxi p imm) := by cases p <;> rfl
theorem EncodeLength.inx (p : SpPair) : EncodeLength.Statement (.inx p) := by cases p <;> rfl
theorem EncodeLength.dad (p : SpPair) : EncodeLength.Statement (.dad p) := by cases p <;> rfl
theorem EncodeLength.dcx (p : SpPair) : EncodeLength.Statement (.dcx p) := by cases p <;> rfl
theorem EncodeLength.pop (p : PswPair) : EncodeLength.Statement (.pop p) := by cases p <;> rfl
theorem EncodeLength.push (p : PswPair) : EncodeLength.Statement (.push p) := by cases p <;> rfl
theorem EncodeLength.stax (p : BdPair) : EncodeLength.Statement (.stax p) := by cases p <;> rfl
theorem EncodeLength.ldax (p : BdPair) : EncodeLength.Statement (.ldax p) := by cases p <;> rfl
theorem EncodeLength.mov (dst src : Register) : EncodeLength.Statement (.mov dst src) := by cases dst <;> cases src <;> rfl
theorem EncodeLength.add (src : Register) : EncodeLength.Statement (.add src) := by cases src <;> rfl
theorem EncodeLength.adc (src : Register) : EncodeLength.Statement (.adc src) := by cases src <;> rfl
theorem EncodeLength.sub (src : Register) : EncodeLength.Statement (.sub src) := by cases src <;> rfl
theorem EncodeLength.sbb (src : Register) : EncodeLength.Statement (.sbb src) := by cases src <;> rfl
theorem EncodeLength.ana (src : Register) : EncodeLength.Statement (.ana src) := by cases src <;> rfl
theorem EncodeLength.xra (src : Register) : EncodeLength.Statement (.xra src) := by cases src <;> rfl
theorem EncodeLength.ora (src : Register) : EncodeLength.Statement (.ora src) := by cases src <;> rfl
theorem EncodeLength.cmp (src : Register) : EncodeLength.Statement (.cmp src) := by cases src <;> rfl
theorem EncodeLength.inr (dst : Register) : EncodeLength.Statement (.inr dst) := by cases dst <;> rfl
theorem EncodeLength.dcr (dst : Register) : EncodeLength.Statement (.dcr dst) := by cases dst <;> rfl
theorem EncodeLength.mvi (dst : Register) (imm : Byte) : EncodeLength.Statement (.mvi dst imm) := by cases dst <;> rfl
theorem EncodeLength.rnz : EncodeLength.Statement .rnz := rfl
theorem EncodeLength.rz : EncodeLength.Statement .rz := rfl
theorem EncodeLength.rnc : EncodeLength.Statement .rnc := rfl
theorem EncodeLength.rc : EncodeLength.Statement .rc := rfl
theorem EncodeLength.rpo : EncodeLength.Statement .rpo := rfl
theorem EncodeLength.rpe : EncodeLength.Statement .rpe := rfl
theorem EncodeLength.rp : EncodeLength.Statement .rp := rfl
theorem EncodeLength.rm : EncodeLength.Statement .rm := rfl
theorem EncodeLength.jnz (addr : Word) : EncodeLength.Statement (.jnz addr) := rfl
theorem EncodeLength.jz (addr : Word) : EncodeLength.Statement (.jz addr) := rfl
theorem EncodeLength.jnc (addr : Word) : EncodeLength.Statement (.jnc addr) := rfl
theorem EncodeLength.jc (addr : Word) : EncodeLength.Statement (.jc addr) := rfl
theorem EncodeLength.jpo (addr : Word) : EncodeLength.Statement (.jpo addr) := rfl
theorem EncodeLength.jpe (addr : Word) : EncodeLength.Statement (.jpe addr) := rfl
theorem EncodeLength.jp (addr : Word) : EncodeLength.Statement (.jp addr) := rfl
theorem EncodeLength.jm (addr : Word) : EncodeLength.Statement (.jm addr) := rfl
theorem EncodeLength.cnz (addr : Word) : EncodeLength.Statement (.cnz addr) := rfl
theorem EncodeLength.cz (addr : Word) : EncodeLength.Statement (.cz addr) := rfl
theorem EncodeLength.cnc (addr : Word) : EncodeLength.Statement (.cnc addr) := rfl
theorem EncodeLength.cc (addr : Word) : EncodeLength.Statement (.cc addr) := rfl
theorem EncodeLength.cpo (addr : Word) : EncodeLength.Statement (.cpo addr) := rfl
theorem EncodeLength.cpe (addr : Word) : EncodeLength.Statement (.cpe addr) := rfl
theorem EncodeLength.cp (addr : Word) : EncodeLength.Statement (.cp addr) := rfl
theorem EncodeLength.cm (addr : Word) : EncodeLength.Statement (.cm addr) := rfl
theorem EncodeLength.rst (n : BitVec 3) : EncodeLength.Statement (.rst n) := by unfold EncodeLength.Statement; revert n; decide
theorem EncodeLength.nopAlias (x : BitVec 3) : EncodeLength.Statement (.nopAlias x) := by unfold EncodeLength.Statement; revert x; decide
theorem EncodeLength.unknownCB : EncodeLength.Statement .unknownCB := rfl
theorem EncodeLength.unknownD9 : EncodeLength.Statement .unknownD9 := rfl
theorem EncodeLength.unknownDD : EncodeLength.Statement .unknownDD := rfl
theorem EncodeLength.unknownED : EncodeLength.Statement .unknownED := rfl
theorem EncodeLength.unknownFD : EncodeLength.Statement .unknownFD := rfl

end Sys2Proof.Laws
end

