-- ==== Sys2Proof/Laws/State.lean ====
section
/-! SUPPORT. One lemma for each field of `State` under each update of the sequencer, so that no proof unfolds a record update. -/

namespace Sys2Proof.Machine

/-! ### `State.afterRecord` -/

@[simp] theorem afterRecord_pc (s : State) (n : Nat) (r : DecodedInstruction) :
    (s.afterRecord n r).pc = s.pc + BitVec.ofNat 16 n := rfl
@[simp] theorem afterRecord_phase (s : State) (n : Nat) (r : DecodedInstruction) : (s.afterRecord n r).phase = .opc := rfl
@[simp] theorem afterRecord_opc (s : State) (n : Nat) (r : DecodedInstruction) : (s.afterRecord n r).opc = s.opc := rfl
@[simp] theorem afterRecord_lo (s : State) (n : Nat) (r : DecodedInstruction) : (s.afterRecord n r).lo = s.lo := rfl
@[simp] theorem afterRecord_err (s : State) (n : Nat) (r : DecodedInstruction) : (s.afterRecord n r).err = s.err := rfl
@[simp] theorem afterRecord_stream (s : State) (n : Nat) (r : DecodedInstruction) :
    (s.afterRecord n r).stream = s.stream := rfl
@[simp] theorem afterRecord_cursor (s : State) (n : Nat) (r : DecodedInstruction) :
    (s.afterRecord n r).cursor = s.cursor + 1 := rfl
@[simp] theorem afterRecord_outRec (s : State) (n : Nat) (r : DecodedInstruction) :
    (s.afterRecord n r).outRec = some r := rfl
@[simp] theorem afterRecord_errValid (s : State) (n : Nat) (r : DecodedInstruction) :
    (s.afterRecord n r).errValid = false := rfl
@[simp] theorem afterRecord_start (s : State) (n : Nat) (r : DecodedInstruction) :
    (s.afterRecord n r).start = s.start := rfl
@[simp] theorem afterRecord_started (s : State) (n : Nat) (r : DecodedInstruction) :
    (s.afterRecord n r).started = s.started := rfl
@[simp] theorem afterRecord_emitted (s : State) (n : Nat) (r : DecodedInstruction) :
    (s.afterRecord n r).emitted = s.emitted ++ [r] := rfl
@[simp] theorem afterRecord_passBase (s : State) (n : Nat) (r : DecodedInstruction) :
    (s.afterRecord n r).passBase = s.passBase := rfl

/-! ### `State.afterEmit` -/

@[simp] theorem afterEmit_pc (s : State) (r : DecodedInstruction) : (s.afterEmit r).pc = s.pc + BitVec.ofNat 16 r.byteLength := rfl
@[simp] theorem afterEmit_phase (s : State) (r : DecodedInstruction) : (s.afterEmit r).phase = .opc := rfl
@[simp] theorem afterEmit_opc (s : State) (r : DecodedInstruction) : (s.afterEmit r).opc = s.opc := rfl
@[simp] theorem afterEmit_lo (s : State) (r : DecodedInstruction) : (s.afterEmit r).lo = s.lo := rfl
@[simp] theorem afterEmit_err (s : State) (r : DecodedInstruction) : (s.afterEmit r).err = s.err := rfl
@[simp] theorem afterEmit_stream (s : State) (r : DecodedInstruction) : (s.afterEmit r).stream = s.stream := rfl
@[simp] theorem afterEmit_cursor (s : State) (r : DecodedInstruction) : (s.afterEmit r).cursor = s.cursor + 1 := rfl
@[simp] theorem afterEmit_outRec (s : State) (r : DecodedInstruction) : (s.afterEmit r).outRec = some r := rfl
@[simp] theorem afterEmit_errValid (s : State) (r : DecodedInstruction) : (s.afterEmit r).errValid = false := rfl
@[simp] theorem afterEmit_start (s : State) (r : DecodedInstruction) : (s.afterEmit r).start = s.start := rfl
@[simp] theorem afterEmit_started (s : State) (r : DecodedInstruction) : (s.afterEmit r).started = s.started := rfl
@[simp] theorem afterEmit_emitted (s : State) (r : DecodedInstruction) : (s.afterEmit r).emitted = s.emitted ++ [r] := rfl
@[simp] theorem afterEmit_passBase (s : State) (r : DecodedInstruction) : (s.afterEmit r).passBase = s.passBase := rfl

/-! ### `State.latchOpcode` -/

@[simp] theorem latchOpcode_pc (s : State) (b : Byte) : (s.latchOpcode b).pc = s.pc := rfl
@[simp] theorem latchOpcode_phase (s : State) (b : Byte) : (s.latchOpcode b).phase = .op1 := rfl
@[simp] theorem latchOpcode_opc (s : State) (b : Byte) : (s.latchOpcode b).opc = some b := rfl
@[simp] theorem latchOpcode_lo (s : State) (b : Byte) : (s.latchOpcode b).lo = s.lo := rfl
@[simp] theorem latchOpcode_err (s : State) (b : Byte) : (s.latchOpcode b).err = s.err := rfl
@[simp] theorem latchOpcode_stream (s : State) (b : Byte) : (s.latchOpcode b).stream = s.stream := rfl
@[simp] theorem latchOpcode_cursor (s : State) (b : Byte) : (s.latchOpcode b).cursor = s.cursor + 1 := rfl
@[simp] theorem latchOpcode_outRec (s : State) (b : Byte) : (s.latchOpcode b).outRec = none := rfl
@[simp] theorem latchOpcode_errValid (s : State) (b : Byte) : (s.latchOpcode b).errValid = false := rfl
@[simp] theorem latchOpcode_start (s : State) (b : Byte) : (s.latchOpcode b).start = s.start := rfl
@[simp] theorem latchOpcode_started (s : State) (b : Byte) : (s.latchOpcode b).started = s.started := rfl
@[simp] theorem latchOpcode_emitted (s : State) (b : Byte) : (s.latchOpcode b).emitted = s.emitted := rfl
@[simp] theorem latchOpcode_passBase (s : State) (b : Byte) : (s.latchOpcode b).passBase = s.passBase := rfl

/-! ### `State.latchLow` -/

@[simp] theorem latchLow_pc (s : State) (b : Byte) : (s.latchLow b).pc = s.pc := rfl
@[simp] theorem latchLow_phase (s : State) (b : Byte) : (s.latchLow b).phase = .op2 := rfl
@[simp] theorem latchLow_opc (s : State) (b : Byte) : (s.latchLow b).opc = s.opc := rfl
@[simp] theorem latchLow_lo (s : State) (b : Byte) : (s.latchLow b).lo = some b := rfl
@[simp] theorem latchLow_err (s : State) (b : Byte) : (s.latchLow b).err = s.err := rfl
@[simp] theorem latchLow_stream (s : State) (b : Byte) : (s.latchLow b).stream = s.stream := rfl
@[simp] theorem latchLow_cursor (s : State) (b : Byte) : (s.latchLow b).cursor = s.cursor + 1 := rfl
@[simp] theorem latchLow_outRec (s : State) (b : Byte) : (s.latchLow b).outRec = none := rfl
@[simp] theorem latchLow_errValid (s : State) (b : Byte) : (s.latchLow b).errValid = false := rfl
@[simp] theorem latchLow_start (s : State) (b : Byte) : (s.latchLow b).start = s.start := rfl
@[simp] theorem latchLow_started (s : State) (b : Byte) : (s.latchLow b).started = s.started := rfl
@[simp] theorem latchLow_emitted (s : State) (b : Byte) : (s.latchLow b).emitted = s.emitted := rfl
@[simp] theorem latchLow_passBase (s : State) (b : Byte) : (s.latchLow b).passBase = s.passBase := rfl

/-! ### `State.finishPass` -/

@[simp] theorem finishPass_pc (s : State) : (s.finishPass).pc = s.pc := rfl
@[simp] theorem finishPass_phase (s : State) : (s.finishPass).phase = .done := rfl
@[simp] theorem finishPass_opc (s : State) : (s.finishPass).opc = s.opc := rfl
@[simp] theorem finishPass_lo (s : State) : (s.finishPass).lo = s.lo := rfl
@[simp] theorem finishPass_err (s : State) : (s.finishPass).err = s.err := rfl
@[simp] theorem finishPass_stream (s : State) : (s.finishPass).stream = s.stream := rfl
@[simp] theorem finishPass_cursor (s : State) : (s.finishPass).cursor = s.cursor := rfl
@[simp] theorem finishPass_outRec (s : State) : (s.finishPass).outRec = none := rfl
@[simp] theorem finishPass_errValid (s : State) : (s.finishPass).errValid = false := rfl
@[simp] theorem finishPass_start (s : State) : (s.finishPass).start = s.start := rfl
@[simp] theorem finishPass_started (s : State) : (s.finishPass).started = s.started := rfl
@[simp] theorem finishPass_emitted (s : State) : (s.finishPass).emitted = s.emitted := rfl
@[simp] theorem finishPass_passBase (s : State) : (s.finishPass).passBase = s.passBase := rfl

/-! ### `State.raiseTruncated` -/

@[simp] theorem raiseTruncated_pc (s : State) (op : Byte) : (s.raiseTruncated op).pc = s.pc := rfl
@[simp] theorem raiseTruncated_phase (s : State) (op : Byte) : (s.raiseTruncated op).phase = .err := rfl
@[simp] theorem raiseTruncated_opc (s : State) (op : Byte) : (s.raiseTruncated op).opc = s.opc := rfl
@[simp] theorem raiseTruncated_lo (s : State) (op : Byte) : (s.raiseTruncated op).lo = s.lo := rfl
@[simp] theorem raiseTruncated_err (s : State) (op : Byte) : (s.raiseTruncated op).err = some ⟨s.pc, op⟩ := rfl
@[simp] theorem raiseTruncated_stream (s : State) (op : Byte) : (s.raiseTruncated op).stream = s.stream := rfl
@[simp] theorem raiseTruncated_cursor (s : State) (op : Byte) : (s.raiseTruncated op).cursor = s.cursor := rfl
@[simp] theorem raiseTruncated_outRec (s : State) (op : Byte) : (s.raiseTruncated op).outRec = none := rfl
@[simp] theorem raiseTruncated_errValid (s : State) (op : Byte) : (s.raiseTruncated op).errValid = true := rfl
@[simp] theorem raiseTruncated_start (s : State) (op : Byte) : (s.raiseTruncated op).start = s.start := rfl
@[simp] theorem raiseTruncated_started (s : State) (op : Byte) : (s.raiseTruncated op).started = s.started := rfl
@[simp] theorem raiseTruncated_emitted (s : State) (op : Byte) : (s.raiseTruncated op).emitted = s.emitted := rfl
@[simp] theorem raiseTruncated_passBase (s : State) (op : Byte) : (s.raiseTruncated op).passBase = s.passBase := rfl

/-! ### `State.beginPass` -/

@[simp] theorem beginPass_pc (s : State) (m : Memory) : (s.beginPass m).pc = 0 := rfl
@[simp] theorem beginPass_phase (s : State) (m : Memory) : (s.beginPass m).phase = .opc := rfl
@[simp] theorem beginPass_opc (s : State) (m : Memory) : (s.beginPass m).opc = none := rfl
@[simp] theorem beginPass_lo (s : State) (m : Memory) : (s.beginPass m).lo = none := rfl
@[simp] theorem beginPass_err (s : State) (m : Memory) : (s.beginPass m).err = none := rfl
@[simp] theorem beginPass_stream (s : State) (m : Memory) : (s.beginPass m).stream = m := rfl
@[simp] theorem beginPass_cursor (s : State) (m : Memory) : (s.beginPass m).cursor = 0 := rfl
@[simp] theorem beginPass_outRec (s : State) (m : Memory) : (s.beginPass m).outRec = none := rfl
@[simp] theorem beginPass_errValid (s : State) (m : Memory) : (s.beginPass m).errValid = false := rfl
@[simp] theorem beginPass_start (s : State) (m : Memory) : (s.beginPass m).start = none := rfl
@[simp] theorem beginPass_started (s : State) (m : Memory) : (s.beginPass m).started = true := rfl
@[simp] theorem beginPass_emitted (s : State) (m : Memory) : (s.beginPass m).emitted = s.emitted := rfl
@[simp] theorem beginPass_passBase (s : State) (m : Memory) : (s.beginPass m).passBase = s.emitted.length := rfl

/-! ### `State.recorded` -/

@[simp] theorem recorded_pc (s : State) (len : Nat) (r : DecodedInstruction) : (s.recorded len r).pc = BitVec.ofNat 16 (s.pc.toNat + len) := rfl
@[simp] theorem recorded_phase (s : State) (len : Nat) (r : DecodedInstruction) : (s.recorded len r).phase = .opc := rfl
@[simp] theorem recorded_opc (s : State) (len : Nat) (r : DecodedInstruction) : (s.recorded len r).opc = s.opc := rfl
@[simp] theorem recorded_lo (s : State) (len : Nat) (r : DecodedInstruction) : (s.recorded len r).lo = s.lo := rfl
@[simp] theorem recorded_err (s : State) (len : Nat) (r : DecodedInstruction) : (s.recorded len r).err = s.err := rfl
@[simp] theorem recorded_stream (s : State) (len : Nat) (r : DecodedInstruction) : (s.recorded len r).stream = s.stream := rfl
@[simp] theorem recorded_cursor (s : State) (len : Nat) (r : DecodedInstruction) : (s.recorded len r).cursor = s.cursor + 1 := rfl
@[simp] theorem recorded_outRec (s : State) (len : Nat) (r : DecodedInstruction) : (s.recorded len r).outRec = some r := rfl
@[simp] theorem recorded_errValid (s : State) (len : Nat) (r : DecodedInstruction) : (s.recorded len r).errValid = false := rfl
@[simp] theorem recorded_start (s : State) (len : Nat) (r : DecodedInstruction) : (s.recorded len r).start = s.start := rfl
@[simp] theorem recorded_started (s : State) (len : Nat) (r : DecodedInstruction) : (s.recorded len r).started = s.started := rfl
@[simp] theorem recorded_emitted (s : State) (len : Nat) (r : DecodedInstruction) : (s.recorded len r).emitted = s.emitted ++ [r] := rfl
@[simp] theorem recorded_passBase (s : State) (len : Nat) (r : DecodedInstruction) : (s.recorded len r).passBase = s.passBase := rfl

end Sys2Proof.Machine
end

