-- ==== Sys2Proof/Laws/Exec.lean ====
section
/-! SUPPORT. What `exec` can do, said once: it emits one valid record of the instruction, at `pc`, of the instruction's length. -/

namespace Sys2Proof.Machine

/-- The length of an instruction is one, two or three bytes. -/
theorem encode_length_cases (i : Instr) :
    (encode i).length = 1 ∨ (encode i).length = 2 ∨ (encode i).length = 3 := by
  cases i <;> simp [encode, Instr.operandBytes]

/-- The encoding's length is the classifier's (the family `EncodeLength`, all constructors together). -/
theorem encode_length (i : Instr) : (encode i).length = instrLength i.opcode := by
  cases i
  case nop => exact Laws.EncodeLength.nop
  case rlc => exact Laws.EncodeLength.rlc
  case rrc => exact Laws.EncodeLength.rrc
  case ral => exact Laws.EncodeLength.ral
  case rar => exact Laws.EncodeLength.rar
  case shld v0 => exact Laws.EncodeLength.shld v0
  case daa => exact Laws.EncodeLength.daa
  case lhld v0 => exact Laws.EncodeLength.lhld v0
  case cma => exact Laws.EncodeLength.cma
  case sta v0 => exact Laws.EncodeLength.sta v0
  case stc => exact Laws.EncodeLength.stc
  case lda v0 => exact Laws.EncodeLength.lda v0
  case cmc => exact Laws.EncodeLength.cmc
  case hlt => exact Laws.EncodeLength.hlt
  case jmp v0 => exact Laws.EncodeLength.jmp v0
  case adi v0 => exact Laws.EncodeLength.adi v0
  case ret => exact Laws.EncodeLength.ret
  case call v0 => exact Laws.EncodeLength.call v0
  case aci v0 => exact Laws.EncodeLength.aci v0
  case outPort v0 => exact Laws.EncodeLength.outPort v0
  case sui v0 => exact Laws.EncodeLength.sui v0
  case inPort v0 => exact Laws.EncodeLength.inPort v0
  case sbi v0 => exact Laws.EncodeLength.sbi v0
  case xthl => exact Laws.EncodeLength.xthl
  case ani v0 => exact Laws.EncodeLength.ani v0
  case pchl => exact Laws.EncodeLength.pchl
  case xchg => exact Laws.EncodeLength.xchg
  case xri v0 => exact Laws.EncodeLength.xri v0
  case di => exact Laws.EncodeLength.di
  case ori v0 => exact Laws.EncodeLength.ori v0
  case sphl => exact Laws.EncodeLength.sphl
  case ei => exact Laws.EncodeLength.ei
  case cpi v0 => exact Laws.EncodeLength.cpi v0
  case lxi v0 v1 => exact Laws.EncodeLength.lxi v0 v1
  case inx v0 => exact Laws.EncodeLength.inx v0
  case dad v0 => exact Laws.EncodeLength.dad v0
  case dcx v0 => exact Laws.EncodeLength.dcx v0
  case pop v0 => exact Laws.EncodeLength.pop v0
  case push v0 => exact Laws.EncodeLength.push v0
  case stax v0 => exact Laws.EncodeLength.stax v0
  case ldax v0 => exact Laws.EncodeLength.ldax v0
  case mov v0 v1 => exact Laws.EncodeLength.mov v0 v1
  case add v0 => exact Laws.EncodeLength.add v0
  case adc v0 => exact Laws.EncodeLength.adc v0
  case sub v0 => exact Laws.EncodeLength.sub v0
  case sbb v0 => exact Laws.EncodeLength.sbb v0
  case ana v0 => exact Laws.EncodeLength.ana v0
  case xra v0 => exact Laws.EncodeLength.xra v0
  case ora v0 => exact Laws.EncodeLength.ora v0
  case cmp v0 => exact Laws.EncodeLength.cmp v0
  case inr v0 => exact Laws.EncodeLength.inr v0
  case dcr v0 => exact Laws.EncodeLength.dcr v0
  case mvi v0 v1 => exact Laws.EncodeLength.mvi v0 v1
  case rnz => exact Laws.EncodeLength.rnz
  case rz => exact Laws.EncodeLength.rz
  case rnc => exact Laws.EncodeLength.rnc
  case rc => exact Laws.EncodeLength.rc
  case rpo => exact Laws.EncodeLength.rpo
  case rpe => exact Laws.EncodeLength.rpe
  case rp => exact Laws.EncodeLength.rp
  case rm => exact Laws.EncodeLength.rm
  case jnz v0 => exact Laws.EncodeLength.jnz v0
  case jz v0 => exact Laws.EncodeLength.jz v0
  case jnc v0 => exact Laws.EncodeLength.jnc v0
  case jc v0 => exact Laws.EncodeLength.jc v0
  case jpo v0 => exact Laws.EncodeLength.jpo v0
  case jpe v0 => exact Laws.EncodeLength.jpe v0
  case jp v0 => exact Laws.EncodeLength.jp v0
  case jm v0 => exact Laws.EncodeLength.jm v0
  case cnz v0 => exact Laws.EncodeLength.cnz v0
  case cz v0 => exact Laws.EncodeLength.cz v0
  case cnc v0 => exact Laws.EncodeLength.cnc v0
  case cc v0 => exact Laws.EncodeLength.cc v0
  case cpo v0 => exact Laws.EncodeLength.cpo v0
  case cpe v0 => exact Laws.EncodeLength.cpe v0
  case cp v0 => exact Laws.EncodeLength.cp v0
  case cm v0 => exact Laws.EncodeLength.cm v0
  case rst v0 => exact Laws.EncodeLength.rst v0
  case nopAlias v0 => exact Laws.EncodeLength.nopAlias v0
  case unknownCB => exact Laws.EncodeLength.unknownCB
  case unknownD9 => exact Laws.EncodeLength.unknownD9
  case unknownDD => exact Laws.EncodeLength.unknownDD
  case unknownED => exact Laws.EncodeLength.unknownED
  case unknownFD => exact Laws.EncodeLength.unknownFD

/-- The fields of a record that depend on its format alone are valid (R30, R43). -/
abbrev fieldsValid (r : DecodedInstruction) : Prop :=
  r.byteLength = 1 + r.format.operandBytes ∧
  r.dst.isSome = hasDst r.format ∧
  r.src.isSome = hasSrc r.format ∧
  r.rp.map PairField.ctx = pairContext r.format ∧
  r.cc.isSome = hasCond r.format ∧
  r.rstn.isSome = (r.format == .rst) ∧
  r.imm8.isSome = (r.byteLength == 2) ∧
  r.imm16.isSome = (r.byteLength == 3)

/-- Every meaning answers a next state, in which one record is emitted and nothing else happens. -/
theorem exec_emits (i : Instr) (s : State) :
    ∃ r, exec i s = .next (s.afterEmit r) ∧ r.address = s.pc ∧ r.opcode = i.opcode ∧
      r.byteLength = (encode i).length ∧ fieldsValid r := by
  cases i <;> exact ⟨_, rfl, rfl, rfl, rfl, ⟨rfl, rfl, rfl, rfl, rfl, rfl, rfl, rfl⟩⟩

/-- The emitted record is valid (R30, R31, R43). -/
theorem exec_emits_valid (i : Instr) (s : State) :
    ∃ r, exec i s = .next (s.afterEmit r) ∧ r.address = s.pc ∧ r.opcode = i.opcode ∧
      r.byteLength = (encode i).length ∧ recordValid r := by
  obtain ⟨r, he, ha, ho, hl, hf⟩ := exec_emits i s
  exact ⟨r, he, ha, ho, hl, by rw [hl, encode_length, ho], hf⟩

/-- `afterRecord` in the terms claims are stated in. -/
theorem afterRecord_eq_recorded (s : State) (n : Nat) (r : DecodedInstruction) : s.afterRecord n r = s.recorded n r := by
  have h : s.pc + BitVec.ofNat 16 n = BitVec.ofNat 16 (s.pc.toNat + n) := by
    apply BitVec.eq_of_toNat_eq
    simp [BitVec.toNat_add, Nat.add_mod]
  simp only [State.afterRecord, State.recorded, h]

/-- `afterEmit` in the terms claims are stated in. -/
theorem afterEmit_eq_recorded (s : State) (r : DecodedInstruction) : s.afterEmit r = s.recorded r.byteLength r :=
  afterRecord_eq_recorded s r.byteLength r

end Sys2Proof.Machine
end

