-- ==== Sys2Proof/Laws/Memory.lean ====
section
/-! SUPPORT. The laws of the ByteStream: what a read gives after a write, and that every operation keeps the canonical form. -/

namespace Sys2Proof.Machine

@[simp] theorem read_nil (k : Nat) : Memory.read [] k = none := rfl

theorem read_cons (p : Nat) (b : Byte) (m : Memory) (k : Nat) :
    Memory.read ((p, b) :: m) k = if k = p then some b else Memory.read m k := by
  by_cases h : k = p <;> simp [Memory.read, List.lookup, h, beq_eq_false_iff_ne.mpr]

/-- A position below every cell is not listed. -/
theorem read_below {m : Memory} {k : Nat} (h : ∀ c ∈ m, k < c.1) : Memory.read m k = none := by
  induction m with
  | nil => rfl
  | cons c m ih =>
    obtain ⟨p, b⟩ := c
    have hp : k < p := h (p, b) (by simp)
    rw [read_cons, if_neg (by omega), ih fun c hc => h c (by simp [hc])]

@[simp] theorem read_write_same (m : Memory) (p : Nat) (b : Byte) : (m.write p b).read p = some b := by
  induction m with
  | nil => simp [Memory.write, read_cons]
  | cons c m ih =>
    obtain ⟨k, v⟩ := c
    simp only [Memory.write]
    split
    · simp [read_cons]
    · split
      · simp [read_cons]
      · rw [read_cons, if_neg ‹_›, ih]

theorem read_write_other (m : Memory) {p q : Nat} (b : Byte) (h : q ≠ p) : (m.write p b).read q = m.read q := by
  induction m with
  | nil => simp [Memory.write, read_cons, h]
  | cons c m ih =>
    obtain ⟨k, v⟩ := c
    simp only [Memory.write]
    split
    · rw [read_cons, if_neg h]
    · split
      · subst_vars; simp [read_cons, h]
      · rw [read_cons, read_cons, ih]

/-- The positions a write leaves in the list: the old ones and the written one. -/
theorem mem_write {m : Memory} {p : Nat} {b : Byte} {c : Host.Cell} (h : c ∈ m.write p b) : c ∈ m ∨ c = (p, b) := by
  induction m with
  | nil => exact .inr (by simpa [Memory.write] using h)
  | cons d m ih =>
    obtain ⟨k, v⟩ := d
    simp only [Memory.write] at h
    split at h
    · simp at h; simp; tauto
    · split at h
      · simp at h; simp; tauto
      · simp only [List.mem_cons] at h ⊢
        rcases h with h | h
        · exact .inl (.inl h)
        · rcases ih h with h | h
          · exact .inl (.inr h)
          · exact .inr h

/-- A write keeps the canonical form. -/
theorem write_wf {m : Memory} (h : m.wf) (p : Nat) (b : Byte) : (m.write p b).wf := by
  induction m with
  | nil => simp [Memory.write, Memory.wf]
  | cons c m ih =>
    obtain ⟨k, v⟩ := c
    simp only [Memory.wf, List.pairwise_cons] at h ih ⊢
    simp only [Memory.write]
    split
    · refine List.pairwise_cons.mpr ⟨fun c hc => ?_, List.pairwise_cons.mpr h⟩
      rcases List.mem_cons.mp hc with rfl | hc
      · assumption
      · exact Nat.lt_trans ‹p < k› (h.1 c hc)
    · split
      · subst_vars; exact List.pairwise_cons.mpr h
      · refine List.pairwise_cons.mpr ⟨fun c hc => ?_, ih h.2⟩
        rcases mem_write hc with hc | rfl
        · exact h.1 c hc
        · show k < p
          omega

theorem ofBytesFrom_length (bs : List Byte) (p : Nat) : (Memory.ofBytesFrom p bs).length = bs.length := by
  induction bs generalizing p with
  | nil => rfl
  | cons b bs ih => simp [Memory.ofBytesFrom, ih]

theorem ofBytesFrom_bytes (bs : List Byte) (p : Nat) : (Memory.ofBytesFrom p bs).bytes = bs := by
  induction bs generalizing p with
  | nil => rfl
  | cons b bs ih => simpa [Memory.ofBytesFrom, Memory.bytes] using ih (p + 1)

theorem ofBytesFrom_positions (bs : List Byte) (p : Nat) :
    (Memory.ofBytesFrom p bs).map Prod.fst = List.range' p bs.length := by
  induction bs generalizing p with
  | nil => rfl
  | cons b bs ih => simp [Memory.ofBytesFrom, ih, List.range'_succ]

/-- The bytes of a list, loaded, are a ByteStream. -/
theorem ofBytes_isStream (bs : List Byte) : (Memory.ofBytes bs).isStream := by
  simp [Memory.isStream, Memory.ofBytes, ofBytesFrom_positions, ofBytesFrom_length, List.range_eq_range']

@[simp] theorem ofBytes_length (bs : List Byte) : (Memory.ofBytes bs).length = bs.length := ofBytesFrom_length bs 0

@[simp] theorem ofBytes_bytes (bs : List Byte) : (Memory.ofBytes bs).bytes = bs := ofBytesFrom_bytes bs 0

theorem read_ofBytesFrom (bs : List Byte) (p k : Nat) : (Memory.ofBytesFrom p bs).read (p + k) = bs[k]? := by
  induction bs generalizing p k with
  | nil => rfl
  | cons b bs ih =>
    simp only [Memory.ofBytesFrom, read_cons]
    cases k with
    | zero => simp
    | succ k =>
      rw [if_neg (by omega), show p + (k + 1) = p + 1 + k by omega, ih]
      simp

/-- The read of a loaded stream is the byte at that position. -/
theorem read_ofBytes (bs : List Byte) (k : Nat) : (Memory.ofBytes bs).read k = bs[k]? := by
  have h := read_ofBytesFrom bs 0 k
  rwa [Nat.zero_add] at h

/-- A list of cells at consecutive positions is the loaded list of its own bytes. -/
theorem eq_ofBytesFrom {m : Memory} {p : Nat} (h : m.map Prod.fst = List.range' p m.length) :
    m = Memory.ofBytesFrom p m.bytes := by
  induction m generalizing p with
  | nil => rfl
  | cons c m ih =>
    obtain ⟨k, b⟩ := c
    simp only [List.map_cons, List.length_cons, List.range'_succ, List.cons.injEq] at h
    obtain ⟨rfl, h⟩ := h
    simpa [Memory.bytes, Memory.ofBytesFrom] using ih h

theorem isStream_eq {m : Memory} (h : m.isStream) : m = Memory.ofBytes m.bytes :=
  eq_ofBytesFrom (by simpa [Memory.isStream, List.range_eq_range'] using h)

theorem read_isStream {m : Memory} (h : m.isStream) (k : Nat) : m.read k = m.bytes[k]? := by
  conv_lhs => rw [isStream_eq h]
  exact read_ofBytes _ _

/-- A ByteStream holds a byte exactly at the positions below its length. -/
theorem read_eq_none_iff {m : Memory} (h : m.isStream) (k : Nat) : m.read k = none ↔ m.length ≤ k := by
  simp [read_isStream h, Memory.bytes]

/-- A ByteStream is in canonical form. -/
theorem isStream_wf {m : Memory} (h : m.isStream) : m.wf := by
  have : (m.map Prod.fst).Pairwise (· < ·) := by rw [h]; exact List.pairwise_lt_range
  exact List.pairwise_map.mp this

theorem write_positions {m : Memory} {p q : Nat} (h : m.map Prod.fst = List.range' p m.length) (b : Byte)
    (hq : p ≤ q) (hq' : q ≤ p + m.length) :
    (m.write q b).map Prod.fst = List.range' p (m.write q b).length := by
  induction m generalizing p with
  | nil => simp at hq'; simp [Memory.write]; omega
  | cons c m ih =>
    obtain ⟨k, v⟩ := c
    simp only [List.map_cons, List.length_cons, List.range'_succ, List.cons.injEq] at h hq'
    obtain ⟨rfl, h⟩ := h
    simp only [Memory.write]
    rw [if_neg (by omega)]
    split
    · subst_vars; simp [h, List.range'_succ]
    · simp only [List.map_cons, List.length_cons, List.range'_succ, List.cons.injEq, true_and]
      exact ih h (by omega) (by omega)

/-- Writing inside a ByteStream, or at its end, leaves a ByteStream. -/
theorem write_isStream {m : Memory} (h : m.isStream) {p : Nat} (hp : p ≤ m.length) (b : Byte) : (m.write p b).isStream := by
  simp only [Memory.isStream, List.range_eq_range'] at h ⊢
  exact write_positions h b (by omega) (by omega)

end Sys2Proof.Machine
end

