-- ==== Sys2Proof/Laws/Pass.lean ====
section
/-! SUPPORT. The pass function one instruction at a time (40_decode_engine.md R129). -/

namespace Sys2Proof.Machine

@[simp] theorem passFrom_nil (P : Params) (pc : Word) : passFrom P pc [] = ([], .success) := rfl

theorem passFrom_zero (P : Params) (pc : Word) {op : Byte} (rest : List Byte) (h : (decodeOp P op).nops = 0) :
    passFrom P pc (op :: rest) = consRecord (mkrec P pc op (decodeOp P op) 0 0) (passFrom P (pc + 1) rest) := by
  rw [passFrom]
  exact h

theorem passFrom_one (P : Params) (pc : Word) {op : Byte} (b1 : Byte) (rest : List Byte) (h : (decodeOp P op).nops = 1) :
    passFrom P pc (op :: b1 :: rest) =
      consRecord (mkrec P pc op (decodeOp P op) b1 0) (passFrom P (pc + 2) rest) := by
  conv => lhs; unfold passFrom
  simp only [h]

theorem passFrom_two (P : Params) (pc : Word) {op : Byte} (b1 b2 : Byte) (rest : List Byte)
    (h : (decodeOp P op).nops = 2) :
    passFrom P pc (op :: b1 :: b2 :: rest) =
      consRecord (mkrec P pc op (decodeOp P op) b1 b2) (passFrom P (pc + 3) rest) := by
  conv => lhs; unfold passFrom
  simp only [h]

/-- Too few bytes follow the opcode: the pass ends in the failure. -/
theorem passFrom_short (P : Params) (pc : Word) {op : Byte} (rest : List Byte)
    (h : rest.length < (decodeOp P op).nops) :
    passFrom P pc (op :: rest) = ([], .truncated pc op) := by
  unfold passFrom
  generalize decodeOp P op = d at *
  dsimp only
  split <;> simp_all

end Sys2Proof.Machine
end

