-- ==== Sys2Proof/Laws/Sequencer.lean ====
section
/-! SUPPORT. What one step can do, said once (40_decode_engine.md R121 to R127): the inversion of `step`, and its value in each
phase. -/

namespace Sys2Proof.Machine

theorem event_byte {s : State} {b : Byte} (h : s.event = .byte b) : s.stream.read s.cursor = some b := by
  unfold State.event at h
  split at h <;> simp_all

theorem event_end {s : State} (h : s.event = .endOfStream) : s.stream.read s.cursor = none := by
  unfold State.event at h
  split at h <;> simp_all

theorem event_of_read {s : State} {b : Byte} (h : s.stream.read s.cursor = some b) : s.event = .byte b := by
  simp [State.event, h]

theorem event_of_end {s : State} (h : s.stream.read s.cursor = none) : s.event = .endOfStream := by
  simp [State.event, h]

/-- The last byte of an instruction: some instruction is run, never a refusal. -/
theorem runDecoded_exec (op b1 b2 : Byte) (s : State) :
    ∃ i, Instr.ofDecoded op (decodeOp Config.params op) b1 b2 = some i ∧ runDecoded op b1 b2 s = exec i s := by
  obtain ⟨i, hi⟩ := Option.isSome_iff_exists.mp (ofDecoded_isSome op b1 b2)
  exact ⟨i, hi, by simp [runDecoded, hi]⟩

/-- Without a `start`, a started machine steps by its phase. -/
theorem step_ready {s : State} (h : s.ready) :
    step s = match s.phase with
      | .opc => stepOpc s
      | .op1 => stepOp1 s
      | .op2 => stepOp2 s
      | .done => .fault .passDone
      | .err => .fault .passFailed := by
  obtain ⟨h1, h2⟩ := h
  simp only [step, sequencerStep, h1, h2, if_true] <;> rfl

/-- A pending `start` is taken first. -/
theorem step_start {s : State} {m : Memory} (h : s.start = some m) : step s = .next (s.beginPass m) := by
  simp [step, sequencerStep, h]

/-- The bytes of an instruction that has just been completed: its opcode and operand bytes, and where they came from. -/
structure Completes (s : State) (op b1 b2 : Byte) : Prop where
  ready : s.ready
  form  :
    (s.phase = .opc ∧ s.event = .byte op ∧ nops op = 0 ∧ b1 = 0 ∧ b2 = 0) ∨
    (s.phase = .op1 ∧ s.opc = some op ∧ s.event = .byte b1 ∧ nops op = 1 ∧ b2 = 0) ∨
    (s.phase = .op2 ∧ s.opc = some op ∧ s.lo = some b1 ∧ s.event = .byte b2 ∧ nops op = 2)

/-- A step that answers a next state does one of seven things. -/
theorem step_cases {s t : State} (h : step s = .next t) :
    (∃ m, s.start = some m ∧ t = s.beginPass m) ∨
    (s.ready ∧ s.phase = .opc ∧ s.event = .endOfStream ∧ t = s.finishPass) ∨
    (∃ op, s.ready ∧ s.phase = .opc ∧ s.event = .byte op ∧ nops op ≠ 0 ∧ t = s.latchOpcode op) ∨
    (∃ op b, s.ready ∧ s.phase = .op1 ∧ s.opc = some op ∧ s.event = .byte b ∧ nops op ≠ 1 ∧ t = s.latchLow b) ∨
    (∃ op, s.ready ∧ (s.phase = .op1 ∨ s.phase = .op2) ∧ s.opc = some op ∧ s.event = .endOfStream ∧
      t = s.raiseTruncated op) ∨
    (∃ op b1 b2 i, Completes s op b1 b2 ∧ Instr.ofDecoded op (decodeOp Config.params op) b1 b2 = some i ∧
      exec i s = .next t) ∨
    (∃ op low b, s.ready ∧ s.phase = .op2 ∧ s.opc = some op ∧ (s.lo = some low ∨ nops op = 0) ∧ s.event = .byte b ∧
      nops op ≠ 2 ∧ t = s.afterRecord 3 (mkrec Config.params s.pc op (decodeOp Config.params op) low b)) := by
  cases hs : s.start with
  | some m =>
    rw [step_start hs] at h
    cases h
    exact .inl ⟨m, rfl, rfl⟩
  | none =>
    cases hd : s.started with
    | false => simp [step, sequencerStep, hs, hd] at h
    | true =>
      have hr : s.ready := ⟨hs, hd⟩
      rw [step_ready hr] at h
      cases hp : s.phase <;> rw [hp] at h <;> dsimp only at h
      case done => cases h
      case err => cases h
      case opc =>
        unfold stepOpc at h
        split at h
        · cases h; exact .inr (.inl ⟨hr, rfl, ‹_›, rfl⟩)
        · rename_i b he
          rw [params_nops] at h
          split at h
          · obtain ⟨i, hi, hx⟩ := runDecoded_exec b 0 0 s
            exact .inr (.inr (.inr (.inr (.inr (.inl
              ⟨b, 0, 0, i, ⟨hr, .inl ⟨hp, he, ‹_›, rfl, rfl⟩⟩, hi, hx ▸ h⟩)))))
          · cases h; exact .inr (.inr (.inl ⟨b, hr, rfl, he, ‹_›, rfl⟩))
      case op1 =>
        unfold stepOp1 at h
        split at h
        · cases h
        · rename_i op ho
          split at h
          · cases h; exact .inr (.inr (.inr (.inr (.inl ⟨op, hr, .inl rfl, ho, ‹_›, rfl⟩))))
          · rename_i b he
            rw [params_nops] at h
            split at h
            · obtain ⟨i, hi, hx⟩ := runDecoded_exec op b 0 s
              exact .inr (.inr (.inr (.inr (.inr (.inl
                ⟨op, b, 0, i, ⟨hr, .inr (.inl ⟨hp, ho, he, ‹_›, rfl⟩)⟩, hi, hx ▸ h⟩)))))
            · cases h; exact .inr (.inr (.inr (.inl ⟨op, b, hr, rfl, ho, he, ‹_›, rfl⟩)))
      case op2 =>
        unfold stepOp2 at h
        split at h
        · cases h
        · rename_i op ho
          split at h
          · cases h; exact .inr (.inr (.inr (.inr (.inl ⟨op, hr, .inr rfl, ho, ‹_›, rfl⟩))))
          · rename_i b he
            simp only [params_nops] at h
            split at h
            · cases h
              exact .inr (.inr (.inr (.inr (.inr (.inr ⟨op, 0, b, hr, rfl, ho, .inr ‹_›, he, by omega, rfl⟩)))))
            split at h
            · cases h
            · rename_i low hl
              split at h
              · obtain ⟨i, hi, hx⟩ := runDecoded_exec op low b s
                exact .inr (.inr (.inr (.inr (.inr (.inl
                  ⟨op, low, b, i, ⟨hr, .inr (.inr ⟨hp, ho, hl, he, ‹_›⟩)⟩, hi, hx ▸ h⟩)))))
              · cases h
                exact .inr (.inr (.inr (.inr (.inr (.inr ⟨op, low, b, hr, rfl, ho, .inl hl, he, ‹_›, rfl⟩)))))

end Sys2Proof.Machine
end

