-- ==== Sys2Proof/Machine/Render.lean ====
section
/-! DEFINITION. The informative text view of a record (30_encoding.md R95 to R98, 00_scope.md R6). The formatter is outside the
hard core; the text forms beyond `0000 NOP` and `$1234` are the spec's own decisions (92 D7, D10; log entry 15). -/

namespace Sys2Proof.Machine

/-- One uppercase hexadecimal digit. -/
def hexDigit (v : BitVec 4) : Char :=
  (#v['0', '1', '2', '3', '4', '5', '6', '7', '8', '9', 'A', 'B', 'C', 'D', 'E', 'F'] : Vector Char 16)[v.toFin]

/-- Two uppercase hexadecimal digits (R96). -/
def hexByte (v : Byte) : List Char := [hexDigit (v.extractLsb' 4 4), hexDigit (v.extractLsb' 0 4)]

/-- Four uppercase hexadecimal digits (R96, R98). -/
def hexWord (v : Word) : List Char := hexByte (highByte v) ++ hexByte (lowByte v)

/-- Register names (R21, R96). -/
def registerText : Register → List Char
  | .b => ['B'] | .c => ['C'] | .d => ['D'] | .e => ['E'] | .h => ['H'] | .l => ['L'] | .m => ['M'] | .a => ['A']

/-- Pair names as rendered (R96, 92 D7). -/
def pairText : PairName → List Char
  | .bc => ['B'] | .de => ['D'] | .hl => ['H'] | .sp => ['S', 'P'] | .psw => ['P', 'S', 'W']

/-- Mnemonics as spelled in R95; a condition is folded into its mnemonic (90_conflicts.md C8). -/
def mnemonicText : Mnemonic → String
  | .nop => "NOP" | .rlc => "RLC" | .rrc => "RRC" | .ral => "RAL" | .rar => "RAR" | .shld => "SHLD"
  | .daa => "DAA" | .lhld => "LHLD" | .cma => "CMA" | .sta => "STA" | .stc => "STC" | .lda => "LDA"
  | .cmc => "CMC" | .hlt => "HLT" | .jmp => "JMP" | .adi => "ADI" | .ret => "RET" | .call => "CALL"
  | .aci => "ACI" | .outPort => "OUT" | .sui => "SUI" | .inPort => "IN" | .sbi => "SBI" | .xthl => "XTHL"
  | .ani => "ANI" | .pchl => "PCHL" | .xchg => "XCHG" | .xri => "XRI" | .di => "DI" | .ori => "ORI"
  | .sphl => "SPHL" | .ei => "EI" | .cpi => "CPI" | .lxi => "LXI" | .inx => "INX" | .dad => "DAD"
  | .dcx => "DCX" | .pop => "POP" | .push => "PUSH" | .stax => "STAX" | .ldax => "LDAX" | .mov => "MOV"
  | .add => "ADD" | .adc => "ADC" | .sub => "SUB" | .sbb => "SBB" | .ana => "ANA" | .xra => "XRA"
  | .ora => "ORA" | .cmp => "CMP" | .inr => "INR" | .dcr => "DCR" | .mvi => "MVI" | .rnz => "RNZ" | .rz => "RZ"
  | .rnc => "RNC" | .rc => "RC" | .rpo => "RPO" | .rpe => "RPE" | .rp => "RP" | .rm => "RM" | .jnz => "JNZ"
  | .jz => "JZ" | .jnc => "JNC" | .jc => "JC" | .jpo => "JPO" | .jpe => "JPE" | .jp => "JP" | .jm => "JM"
  | .cnz => "CNZ" | .cz => "CZ" | .cnc => "CNC" | .cc => "CC" | .cpo => "CPO" | .cpe => "CPE" | .cp => "CP"
  | .cm => "CM" | .rst => "RST" | .unknown => "UNKNOWN"

/-- One operand (R96). -/
def operandText : Operand → List Char
  | .reg r => registerText r
  | .pair p => pairText p
  | .imm8 v => '#' :: '$' :: hexByte v
  | .imm16 v => '#' :: '$' :: hexWord v
  | .addr v => '$' :: hexWord v
  | .rstn v => [hexDigit (v.setWidth 4)]
  | .opcode v => '$' :: hexByte v

/-- The operand list, separated by a comma and a space (R98). -/
def operandsText : List Operand → List Char
  | [] => []
  | [o] => operandText o
  | o :: p :: os => operandText o ++ [',', ' '] ++ operandsText (p :: os)

/-- The line of a record: address, mnemonic and operand list, one space between (R98). -/
def renderLine (r : DecodedInstruction) : List Char :=
  hexWord r.address ++ [' '] ++ (mnemonicText r.mnemonic).toList ++
    (if r.operands.isEmpty then [] else ' ' :: operandsText r.operands)

end Sys2Proof.Machine
end

