-- ==== Sys2Proof/Tests/Slice0.lean ====
section
/-! SUPPORT. The model's own tests. Expected values are the spec's: the bit patterns of opcode_table.json and the vectors of
95_test_vectors.md; each test names its source. At the end, a witness for the hypotheses of each statement. -/

namespace Sys2Proof.Tests

open Sys2Proof Sys2Proof.Machine

/-! ### Helpers -/

/-- The next state, if there is one. -/
def nextOf : Result → Option State
  | .next t => some t
  | .fault _ => none
  | .refused _ => none

/-- The fault, if the step ends in one. -/
def faultOf : Result → Option Fault
  | .next _ => none
  | .fault r => some r
  | .refused _ => none

/-- The state after reset with a stream supplied. -/
def loaded (bytes : List Byte) : State := { State.reset with stream := Memory.ofBytes bytes }

/-- Waiting for the first operand byte of the stream's instruction. -/
def waitOp1 (bytes : List Byte) : State :=
  { loaded bytes with phase := .op1, opc := some (bytes.getD 0 0), cursor := 1 }

/-- Waiting for the second operand byte of the stream's instruction. -/
def waitOp2 (bytes : List Byte) : State :=
  { loaded bytes with phase := .op2, opc := some (bytes.getD 0 0), lo := some (bytes.getD 1 0), cursor := 2 }

/-- Bytes, the instruction they spell and its line of text. -/
structure TestVector where
  bytes : List Byte
  instr : Instr
  text  : String

/-- The decoder reads the instruction and nothing is left; the encoder gives the bytes back. -/
def TestVector.decodes (v : TestVector) : Bool :=
  (match decode v.bytes with
    | .ok (i, rest) => i == v.instr && rest.isEmpty
    | .error _ => false) && encode v.instr == v.bytes

/-- The instruction's meaning, at address 0, emits a record with that text and advances `pc` by the number of bytes. -/
def TestVector.renders (v : TestVector) : Bool :=
  match exec v.instr State.reset with
  | .next t => t.outRec.map renderLine == some v.text.toList && t.pc.toNat == v.bytes.length
  | .fault _ => false
  | .refused _ => false

/-! ### Well-formedness: each check refuses an ill-formed term -/

theorem test_wf_refuses_mov_m_m : (Instr.mov .m .m).wellFormed = false := by decide
theorem test_wf_accepts_mov_m_a : (Instr.mov .m .a).wellFormed = true := by decide
theorem test_wf_refuses_alias_of_00 : (Instr.nopAlias 0).wellFormed = false := by decide
theorem test_wf_accepts_alias_38 : (Instr.nopAlias 7).wellFormed = true := by decide

/-! ### Every instruction: decoding, encoding and record -/

/-- Family DataTransfer: bytes from the bit patterns of opcode_table.json, text from 95_test_vectors.md L2-6. -/
def vectorsDataTransfer : List TestVector :=
  [⟨[0b00100010, 0x34, 0x12], .shld 0x1234, "0000 SHLD $1234"⟩,
   ⟨[0b00101010, 0x34, 0x12], .lhld 0x1234, "0000 LHLD $1234"⟩,
   ⟨[0b00110010, 0x34, 0x12], .sta 0x1234, "0000 STA $1234"⟩,
   ⟨[0b00111010, 0x34, 0x12], .lda 0x1234, "0000 LDA $1234"⟩,
   ⟨[0b11101011], .xchg, "0000 XCHG"⟩,
   ⟨[0b00110001, 0x34, 0x12], .lxi .sp 0x1234, "0000 LXI SP, #$1234"⟩,
   ⟨[0b00010010], .stax .de, "0000 STAX D"⟩,
   ⟨[0b00011010], .ldax .de, "0000 LDAX D"⟩,
   ⟨[0b01110001], .mov .m .c, "0000 MOV M, C"⟩,
   ⟨[0b00010110, 0x34], .mvi .d 0x34, "0000 MVI D, #$34"⟩]

theorem test_decode_data_transfer : ∀ v ∈ vectorsDataTransfer, v.decodes = true := by decide

theorem test_exec_data_transfer : ∀ v ∈ vectorsDataTransfer, v.renders = true := by decide

/-- Family Arithmetic: bytes from the bit patterns of opcode_table.json, text from 95_test_vectors.md L2-6. -/
def vectorsArithmetic : List TestVector :=
  [⟨[0b00100111], .daa, "0000 DAA"⟩,
   ⟨[0b11000110, 0x34], .adi 0x34, "0000 ADI #$34"⟩,
   ⟨[0b11001110, 0x34], .aci 0x34, "0000 ACI #$34"⟩,
   ⟨[0b11010110, 0x34], .sui 0x34, "0000 SUI #$34"⟩,
   ⟨[0b11011110, 0x34], .sbi 0x34, "0000 SBI #$34"⟩,
   ⟨[0b00100011], .inx .hl, "0000 INX H"⟩,
   ⟨[0b00111001], .dad .sp, "0000 DAD SP"⟩,
   ⟨[0b00101011], .dcx .hl, "0000 DCX H"⟩,
   ⟨[0b10000101], .add .l, "0000 ADD L"⟩,
   ⟨[0b10001110], .adc .m, "0000 ADC M"⟩,
   ⟨[0b10010111], .sub .a, "0000 SUB A"⟩,
   ⟨[0b10011010], .sbb .d, "0000 SBB D"⟩,
   ⟨[0b00110100], .inr .m, "0000 INR M"⟩,
   ⟨[0b00111101], .dcr .a, "0000 DCR A"⟩]

theorem test_decode_arithmetic : ∀ v ∈ vectorsArithmetic, v.decodes = true := by decide

theorem test_exec_arithmetic : ∀ v ∈ vectorsArithmetic, v.renders = true := by decide

/-- Family Logical: bytes from the bit patterns of opcode_table.json, text from 95_test_vectors.md L2-6. -/
def vectorsLogical : List TestVector :=
  [⟨[0b00000111], .rlc, "0000 RLC"⟩,
   ⟨[0b00001111], .rrc, "0000 RRC"⟩,
   ⟨[0b00010111], .ral, "0000 RAL"⟩,
   ⟨[0b00011111], .rar, "0000 RAR"⟩,
   ⟨[0b00101111], .cma, "0000 CMA"⟩,
   ⟨[0b00110111], .stc, "0000 STC"⟩,
   ⟨[0b00111111], .cmc, "0000 CMC"⟩,
   ⟨[0b11100110, 0x34], .ani 0x34, "0000 ANI #$34"⟩,
   ⟨[0b11101110, 0x34], .xri 0x34, "0000 XRI #$34"⟩,
   ⟨[0b11110110, 0x34], .ori 0x34, "0000 ORI #$34"⟩,
   ⟨[0b11111110, 0x34], .cpi 0x34, "0000 CPI #$34"⟩,
   ⟨[0b10100011], .ana .e, "0000 ANA E"⟩,
   ⟨[0b10101100], .xra .h, "0000 XRA H"⟩,
   ⟨[0b10110001], .ora .c, "0000 ORA C"⟩,
   ⟨[0b10111101], .cmp .l, "0000 CMP L"⟩]

theorem test_decode_logical : ∀ v ∈ vectorsLogical, v.decodes = true := by decide

theorem test_exec_logical : ∀ v ∈ vectorsLogical, v.renders = true := by decide

/-- Family Branch: bytes from the bit patterns of opcode_table.json, text from 95_test_vectors.md L2-6. -/
def vectorsBranch : List TestVector :=
  [⟨[0b11000011, 0x34, 0x12], .jmp 0x1234, "0000 JMP $1234"⟩,
   ⟨[0b11001001], .ret, "0000 RET"⟩,
   ⟨[0b11001101, 0x34, 0x12], .call 0x1234, "0000 CALL $1234"⟩,
   ⟨[0b11101001], .pchl, "0000 PCHL"⟩,
   ⟨[0b11000000], .rnz, "0000 RNZ"⟩,
   ⟨[0b11001000], .rz, "0000 RZ"⟩,
   ⟨[0b11010000], .rnc, "0000 RNC"⟩,
   ⟨[0b11011000], .rc, "0000 RC"⟩,
   ⟨[0b11100000], .rpo, "0000 RPO"⟩,
   ⟨[0b11101000], .rpe, "0000 RPE"⟩,
   ⟨[0b11110000], .rp, "0000 RP"⟩,
   ⟨[0b11111000], .rm, "0000 RM"⟩,
   ⟨[0b11000010, 0x34, 0x12], .jnz 0x1234, "0000 JNZ $1234"⟩,
   ⟨[0b11001010, 0x34, 0x12], .jz 0x1234, "0000 JZ $1234"⟩,
   ⟨[0b11010010, 0x34, 0x12], .jnc 0x1234, "0000 JNC $1234"⟩,
   ⟨[0b11011010, 0x34, 0x12], .jc 0x1234, "0000 JC $1234"⟩,
   ⟨[0b11100010, 0x34, 0x12], .jpo 0x1234, "0000 JPO $1234"⟩,
   ⟨[0b11101010, 0x34, 0x12], .jpe 0x1234, "0000 JPE $1234"⟩,
   ⟨[0b11110010, 0x34, 0x12], .jp 0x1234, "0000 JP $1234"⟩,
   ⟨[0b11111010, 0x34, 0x12], .jm 0x1234, "0000 JM $1234"⟩,
   ⟨[0b11000100, 0x34, 0x12], .cnz 0x1234, "0000 CNZ $1234"⟩,
   ⟨[0b11001100, 0x34, 0x12], .cz 0x1234, "0000 CZ $1234"⟩,
   ⟨[0b11010100, 0x34, 0x12], .cnc 0x1234, "0000 CNC $1234"⟩,
   ⟨[0b11011100, 0x34, 0x12], .cc 0x1234, "0000 CC $1234"⟩,
   ⟨[0b11100100, 0x34, 0x12], .cpo 0x1234, "0000 CPO $1234"⟩,
   ⟨[0b11101100, 0x34, 0x12], .cpe 0x1234, "0000 CPE $1234"⟩,
   ⟨[0b11110100, 0x34, 0x12], .cp 0x1234, "0000 CP $1234"⟩,
   ⟨[0b11111100, 0x34, 0x12], .cm 0x1234, "0000 CM $1234"⟩,
   ⟨[0b11101111], .rst 5, "0000 RST 5"⟩]

theorem test_decode_branch : ∀ v ∈ vectorsBranch, v.decodes = true := by decide

theorem test_exec_branch : ∀ v ∈ vectorsBranch, v.renders = true := by decide

/-- Family Stack: bytes from the bit patterns of opcode_table.json, text from 95_test_vectors.md L2-6. -/
def vectorsStack : List TestVector :=
  [⟨[0b00000000], .nop, "0000 NOP"⟩,
   ⟨[0b01110110], .hlt, "0000 HLT"⟩,
   ⟨[0b11010011, 0x34], .outPort 0x34, "0000 OUT #$34"⟩,
   ⟨[0b11011011, 0x34], .inPort 0x34, "0000 IN #$34"⟩,
   ⟨[0b11100011], .xthl, "0000 XTHL"⟩,
   ⟨[0b11110011], .di, "0000 DI"⟩,
   ⟨[0b11111001], .sphl, "0000 SPHL"⟩,
   ⟨[0b11111011], .ei, "0000 EI"⟩,
   ⟨[0b11110001], .pop .psw, "0000 POP PSW"⟩,
   ⟨[0b11110101], .push .psw, "0000 PUSH PSW"⟩,
   ⟨[0b00110000], .nopAlias 6, "0000 NOP"⟩,
   ⟨[0b11001011], .unknownCB, "0000 UNKNOWN $CB"⟩,
   ⟨[0b11011001], .unknownD9, "0000 UNKNOWN $D9"⟩,
   ⟨[0b11011101], .unknownDD, "0000 UNKNOWN $DD"⟩,
   ⟨[0b11101101], .unknownED, "0000 UNKNOWN $ED"⟩,
   ⟨[0b11111101], .unknownFD, "0000 UNKNOWN $FD"⟩]

theorem test_decode_stack_io_control : ∀ v ∈ vectorsStack, v.decodes = true := by decide

theorem test_exec_stack_io_control : ∀ v ∈ vectorsStack, v.renders = true := by decide

/-! ### The decode core -/

/-- 95 L2-1, rows 0x5A and 0xE5. -/
theorem test_field_selectors :
    registerName (fieldP 0x5A) = .e ∧ registerName (fieldS 0x5A) = .d ∧ fieldRP 0x5A = 1 ∧
    registerName (fieldP 0xE5) = .h ∧ registerName (fieldS 0xE5) = .l ∧ fieldRP 0xE5 = 2 := by decide

/-- 95 L2-2: pair code 3 differs by context. -/
theorem test_pair_context : pairName 3 .spCtx = .sp ∧ pairName 3 .pswCtx = .psw := by decide

/-- 95 L2-4, corner cases. -/
theorem test_lengths : instrLength 0x76 = 1 ∧ instrLength 0xCD = 3 ∧ instrLength 0xDD = 1 ∧ instrLength 0x22 = 3 ∧
    instrLength 0x23 = 1 ∧ instrLength 0x36 = 2 ∧ instrLength 0x37 = 1 := by decide

/-- 95 L2-4: 18, 26 and 212 opcodes. -/
theorem test_length_counts : oneOperandByte.length = 18 ∧ twoOperandBytes.length = 26 := by decide

/-- 95 L2-5, second column: every opcode of the twelve is an alias. -/
def allAliases : Params := { Config.params with nopAliasSet := Config.unusedOpcodes }

/-- 95 L2-5, third column: none is. -/
def noAliases : Params := { Config.params with nopAliasSet := [] }

theorem test_all_aliases :
    ∀ op ∈ Config.unusedOpcodes, (decodeOp allAliases op).kind = .aliased ∧ (decodeOp allAliases op).mnemonic = .nop := by
  decide

theorem test_no_aliases :
    ∀ op ∈ Config.unusedOpcodes, (decodeOp noAliases op).kind = .unknown ∧ (decodeOp noAliases op).mnemonic = .unknown := by
  decide

/-- 95 L2-5, last paragraph: 0x7E under SRC_DST lists M, A. -/
theorem test_mov_source_first :
    (mkrec { Config.params with movTextOrder := .srcDst } 0 0x7E (decodeOp Config.params 0x7E) 0 0).operands
      = [.reg .m, .reg .a] := by decide

/-- 95 L2-10: 0x76 matches the HLT row only, 0x00 the NOP row of kind DEFINED only. -/
theorem test_rows_of_76_and_00 :
    (opcodeTable.filter fun r => r.covers 0x76).map TableRow.mnemonic = [.hlt] ∧
    (opcodeTable.filter fun r => r.covers 0x00).map TableRow.kind = [.defined] := by decide

/-- 95 L1-8 and L1-5: a JMP without its operand bytes is no instruction. -/
theorem test_decode_truncated : decode [0xC3, 0x00] = .error (.truncated 0xC3) := rfl

/-! ### The step -/

/-- 95 L2-9, trace L1-3, step 0. -/
theorem test_step_opcode :
    (nextOf (step (loaded [0xC3, 0x34, 0x12]))).map (fun t => (t.phase, t.pc, t.opc, t.lo, t.outRec))
      = some (.op1, 0, some 0xC3, none, none) := by decide

/-- 95 L2-9, trace L1-3, step 1. -/
theorem test_step_low :
    (nextOf (step (waitOp1 [0xC3, 0x34, 0x12]))).map (fun t => (t.phase, t.pc, t.opc, t.lo, t.outRec))
      = some (.op2, 0, some 0xC3, some 0x34, none) := by decide

/-- 95 L2-9, trace L1-3, step 2. -/
theorem test_step_high :
    (nextOf (step (waitOp2 [0xC3, 0x34, 0x12]))).map
        (fun t => (t.phase, t.pc, t.opc, t.lo)) = some (.opc, 3, some 0xC3, some 0x34) ∧
    (nextOf (step (waitOp2 [0xC3, 0x34, 0x12]))).map (fun t => t.outRec.map renderLine)
      = some (some "0000 JMP $1234".toList) := by decide

/-- 95 L2-9, trace E2, step 1. -/
theorem test_step_end_op1 :
    (nextOf (step (waitOp1 [0x3E]))).map (fun t => (t.phase, t.pc, t.err, t.errValid, t.outRec))
      = some (.err, 0, some ⟨0, 0x3E⟩, true, none) := by decide

/-- 95 L2-9, trace L1-7. -/
theorem test_step_end_opc :
    (nextOf (step (loaded []))).map (fun t => (t.phase, t.pc, t.done, t.outValid)) = some (.done, 0, true, false) := by
  decide

/-- 95 L2-8, address wrap: the JMP at 0xFFFF of the first stream leaves `pc` at 0x0002. -/
theorem test_pc_wraps :
    (nextOf (exec (.jmp 0x1234) { State.reset with pc := 0xFFFF })).map
        (fun t => (t.pc, t.outRec.map renderLine))
      = some (2, some "FFFF JMP $1234".toList) := by decide

/-- R127 and R281: no step in DONE and before the first `start`. -/
theorem test_no_step :
    faultOf (step { State.reset with phase := .done }) = some .passDone ∧
    faultOf (step { State.reset with phase := .err }) = some .passFailed ∧
    faultOf (step { State.reset with started := false }) = some .notStarted := by decide

/-- 93 U7: a latch that holds no value is not read; also the witness of StepsExactlyWhereLatchesAreWritten. -/
theorem test_latch_faults :
    faultOf (step { loaded [0] with phase := .op1 }) = some .latchUnwritten ∧
    faultOf (step { loaded [0] with phase := .op2 }) = some .latchUnwritten ∧
    faultOf (step { loaded [0] with phase := .op2, opc := some 0xC3 }) = some .latchUnwritten ∧
    (nextOf (step { loaded [] with phase := .op2, opc := some 0xC3 })).map State.phase = some .err := by decide

/-- R128: phase OP1 with a latched opcode of no operand byte goes on to OP2, and OP2 with any opcode adds 3 to `pc`; also the
witness of OperandPhasesTakeAnyOpcode. -/
theorem test_operand_phases_any_opcode :
    (nextOf (step { loaded [7] with phase := .op1, opc := some 0x00 })).map (fun t => (t.phase, t.lo, t.pc))
      = some (.op2, some 7, 0) ∧
    (nextOf (step { loaded [7] with phase := .op2, opc := some 0x06, lo := some 9 })).map (fun t => (t.phase, t.lo, t.pc))
      = some (.opc, some 9, 3) ∧
    (nextOf (step { loaded [7] with phase := .op2, opc := some 0x00 })).map (fun t => (t.phase, t.lo, t.pc))
      = some (.opc, none, 3) ∧
    (nextOf (step { loaded [7] with phase := .op2, opc := some 0x06, lo := some 9 })).map
        (fun t => t.outRec.map fun r => (r.imm8, r.imm16)) = some (some (some 9, none)) := by decide

/-- R280, R282: `start` in the middle of a pass. -/
theorem test_start_restarts :
    (nextOf (step { waitOp1 [0xC3] with start := some (Memory.ofBytes [0x76]) })).map
        (fun t => (t.phase, t.opc, t.cursor, t.stream)) = some (.opc, none, 0, [(0, 0x76)]) := by decide

/-- R80, bits of the JMP row: the placed word runs at the very next step; also the witness of PlacedWordRunsNext. -/
theorem test_withFetchWord :
    decodeTableWord 24 0x1234C3 = some (.jmp 0x1234) ∧ decodeTableWord 8 0xC3 = some (.jmp 0) ∧
    (nextOf (step (State.reset.withFetchWord 24 0x1234C3))).map (fun t => t.outRec.map renderLine)
      = some (some "0000 JMP $1234".toList) := by decide

/-- 95 L2-5: the stream `DD 34 12`. -/
theorem test_pass_unknown :
    (pass Config.params [0xDD, 0x34, 0x12]).1.map renderLine
      = ["0000 UNKNOWN $DD".toList, "0001 INR M".toList, "0002 STAX D".toList] := by decide +kernel

/-- 95 L2-8, E10. -/
theorem test_pass_truncated :
    (pass Config.params [0x3A, 0x00, 0x30, 0x3A]).2 = .truncated 3 0x3A := by decide +kernel

/-- A write keeps the cells in order; an unlisted position holds no byte (R57). -/
theorem test_memory :
    (Memory.ofBytes [1, 2]).write 2 7 = [(0, 1), (1, 2), (2, 7)] ∧
    (Memory.ofBytes [1, 2]).write 0 7 = [(0, 7), (1, 2)] ∧ (Memory.ofBytes [1, 2]).read 2 = none := by decide

/-! ### Witnesses: the hypotheses of each statement with hypotheses are met -/

/-- GuardsHoldAndFallThrough, the fall-through clause. -/
theorem witness_guard_false :
    (fun _ : Byte => false) 0x41 = false ∧ (0x41 : Byte) &&& 0xC0 = 0x40 ∧
    guardedRange 0xC0 0x40 (fun _ => false) movDecoded 0x41 = none := by decide

/-- WordsAreLittleEndian: opcodes with two operand bytes, an address form and a data-word form, and an encoding. -/
theorem witness_two_operand_bytes :
    (decodeOp Config.params 0xFC).nops = 2 ∧ (decodeOp noAliases 0x01).nops = 2 ∧
    encode (.jmp 0xFF00) = [0xC3, 0x00, 0xFF] := by decide

/-- KindsPartitionOpcodes: legal values of `NOP_ALIAS_SET`, the boundaries among them. -/
theorem witness_params_wf : Config.params.wf ∧ allAliases.wf ∧ noAliases.wf := by decide

/-- HltIsNotMov: the first, the last and the neighbours of 0x76. -/
theorem witness_mov_range : ∀ op ∈ ([0x40, 0x75, 0x77, 0x7F] : List Byte), op.toNat / 64 = 1 ∧ op ≠ 0x76 := by decide

/-- UnknownOpcodeIsARecord. -/
theorem witness_unknown : 0xDD ∈ Config.params.unknownSet ∧ 0x08 ∈ noAliases.unknownSet := by decide

/-- DecodeEncodeRoundTrip, MeaningsAgreeWithDecodeCore: one of each length, and the two checked forms. -/
theorem witness_wellFormed :
    (Instr.mov .m .b).wellFormed = true ∧ (Instr.nopAlias 1).wellFormed = true ∧ (Instr.mvi .m 0xFF).wellFormed = true ∧
    (Instr.jmp 0xFFFF).wellFormed = true := by decide

/-- EncodeDecodeBack, LengthDependsOnOpcodeAlone. -/
theorem witness_decode :
    decode [0x06, 0x99, 0x00] = .ok (.mvi .b 0x99, [0x00]) ∧ decode [0x06, 0x00] = .ok (.mvi .b 0x00, []) := ⟨rfl, rfl⟩

/-- MovOrderIsTextOnly: a MOV, and an opcode that is none. -/
theorem witness_mov_order :
    (decodeOp Config.params 0x41).mnemonic = .mov ∧ (decodeOp Config.params 0x76).mnemonic ≠ .mov := by decide

/-- MovRecord and NopAliasRecord: the forms next to the excluded one. -/
theorem witness_forms :
    ¬(Register.m = .m ∧ Register.a = .m) ∧ ¬(Register.a = .m ∧ Register.m = .m) ∧ (1 : BitVec 3) ≠ 0 ∧
    (7 : BitVec 3) ≠ 0 := by decide

/-- The family records with a row: the first and the last row of the longest list. -/
theorem witness_rows :
    (Instr.rlc, Mnemonic.rlc, (0x07 : Byte)) ∈ [(Instr.rlc, Mnemonic.rlc, (0x07 : Byte)), (.nop, .nop, 0x00)] ∧
    (Instr.nop, Mnemonic.nop, (0x00 : Byte)) ∈ [(Instr.rlc, Mnemonic.rlc, (0x07 : Byte)), (.nop, .nop, 0x00)] := by decide

/-- StartBeginsANewPass, TerminalPhasesHaveNoStep with a `start` pending. -/
theorem witness_start :
    let s := { loaded [] with phase := .err, err := some ⟨0, 0xC3⟩, start := some (Memory.ofBytes [0x00]) }
    s.start = some (Memory.ofBytes [0x00]) ∧ s.phase = .err ∧ (nextOf (step s)).isSome = true := by decide

/-- NoStepBeforeStart. -/
theorem witness_not_started :
    let s := { State.reset with started := false }
    s.start = none ∧ s.started = false := by decide

/-- TerminalPhasesHaveNoStep without a `start`. -/
theorem witness_terminal : (nextOf (step (loaded []))).map State.phase = some .done ∧
    (nextOf (step (waitOp2 [0x21, 0x00]))).map State.phase = some .err := by decide

/-- OpcodeByteStep, StreamIsReadOnly, StepRunsDecodedInstruction: phase OPC, no operand byte, and one to come. -/
theorem witness_opc_byte :
    (loaded [0x00]).ready ∧ (loaded [0x00]).event = .byte 0x00 ∧ (decodeOp Config.params 0x00).nops = 0 ∧
    (loaded [0x3E]).event = .byte 0x3E ∧ (decodeOp Config.params 0x3E).nops > 0 ∧ decode [0x00] = .ok (.nop, []) :=
  ⟨⟨rfl, rfl⟩, by decide, by decide, by decide, by decide, rfl⟩

/-- FirstOperandByteStep: one operand byte in all, and two; StepRunsDecodedInstruction, phase OP1. -/
theorem witness_op1_byte :
    (waitOp1 [0x06, 0x99]).ready ∧ (waitOp1 [0x06, 0x99]).event = .byte 0x99 ∧ (decodeOp Config.params 0x06).nops = 1 ∧
    (waitOp1 [0xC3, 0x34]).event = .byte 0x34 ∧ (decodeOp Config.params 0xC3).nops = 2 ∧
    decode [0x06, 0x99] = .ok (.mvi .b 0x99, []) :=
  ⟨⟨rfl, rfl⟩, by decide, by decide, by decide, by decide, rfl⟩

/-- SecondOperandByteStep; StepRunsDecodedInstruction, phase OP2. -/
theorem witness_op2_byte :
    (waitOp2 [0xC3, 0x34, 0x12]).ready ∧ (waitOp2 [0xC3, 0x34, 0x12]).phase = .op2 ∧
    (waitOp2 [0xC3, 0x34, 0x12]).opc = some 0xC3 ∧ (waitOp2 [0xC3, 0x34, 0x12]).lo = some 0x34 ∧
    (waitOp2 [0xC3, 0x34, 0x12]).event = .byte 0x12 ∧ decode [0xC3, 0x34, 0x12] = .ok (.jmp 0x1234, []) :=
  ⟨⟨rfl, rfl⟩, by decide, by decide, by decide, by decide, rfl⟩

/-- EndAtBoundarySucceeds, EndInsideInstructionFails, StreamIsReadOnly, StatusOutputs: `End` in each phase. -/
theorem witness_end :
    (loaded []).ready ∧ (loaded []).phase = .opc ∧ (loaded []).event = .endOfStream ∧
    (waitOp1 [0xC3]).ready ∧ (waitOp1 [0xC3]).phase = .op1 ∧ (waitOp1 [0xC3]).event = .endOfStream ∧
    (waitOp2 [0xC3, 0x00]).ready ∧ (waitOp2 [0xC3, 0x00]).phase = .op2 ∧ (waitOp2 [0xC3, 0x00]).event = .endOfStream :=
  ⟨⟨rfl, rfl⟩, rfl, by decide, ⟨rfl, rfl⟩, rfl, by decide, ⟨rfl, rfl⟩, rfl, by decide⟩

/-- StatusOutputs: steps that set `busy` from OPC and from OP1, `done`, and `error` with `err_valid` (95 L2-9, traces L1-3,
L1-7 and E2). -/
theorem witness_status :
    (nextOf (step (loaded [0xC3]))).map (fun t => (t.busy, t.done, t.error)) = some (true, false, false) ∧
    (nextOf (step (waitOp1 [0xC3, 0x34]))).map (fun t => (t.busy, t.done, t.error)) = some (true, false, false) ∧
    (nextOf (step (loaded []))).map (fun t => (t.busy, t.done, t.error)) = some (false, true, false) ∧
    (nextOf (step (waitOp1 [0x3E]))).map (fun t => (t.busy, t.error, t.errValid)) = some (false, true, true) := by decide

/-- InstructionRunsInItsLength: the longest form. -/
theorem witness_instruction_at_cursor :
    (loaded [0xC3, 0x34, 0x12]).ready ∧ (Instr.jmp 0x1234).wellFormed = true ∧
    ∀ k b, (encode (.jmp 0x1234))[k]? = some b →
      (loaded [0xC3, 0x34, 0x12]).stream.read ((loaded [0xC3, 0x34, 0x12]).cursor + k) = some b := by
  refine ⟨⟨rfl, rfl⟩, rfl, fun k b h => ?_⟩
  have he : encode (.jmp 0x1234) = [0xC3, 0x34, 0x12] := by decide
  rw [he] at h
  show (Memory.ofBytes _).read (0 + k) = some b
  rw [Nat.zero_add, read_ofBytes, h]

/-- StepKeepsInvariant, InvariantStatesStep: a state in phase OP1 meets the invariant and steps. -/
theorem witness_inv_op1 : (waitOp1 [0xC3, 0x34]).Inv ∧ ¬(waitOp1 [0xC3, 0x34]).halted ∧
    (nextOf (step (waitOp1 [0xC3, 0x34]))).isSome = true := by
  refine ⟨?_, by simp [State.halted, waitOp1, loaded, State.reset], by decide⟩
  constructor <;> first
    | decide
    | rfl

/-- StepKeepsInvariant, InvariantStatesStep: phase OP2. -/
theorem witness_inv_op2 : (waitOp2 [0xC3, 0x34]).Inv ∧ (nextOf (step (waitOp2 [0xC3, 0x34]))).isSome = true := by
  refine ⟨?_, by decide⟩
  constructor <;> first
    | decide
    | rfl

/-- OnlyOperandTakingOpcodesTruncate: from this state the step enters ERR. -/
theorem witness_truncates :
    (waitOp2 [0xC3, 0x34]).start = none ∧
    (nextOf (step (waitOp2 [0xC3, 0x34]))).map State.phase = some .err := by decide

/-- The state after the stream `06 99 00` has given its two records (95 L2-8, E8). -/
def afterE8 : State :=
  { loaded [0x06, 0x99, 0x00] with
    pc := 3, opc := some 0x06, cursor := 3
    outRec := some (mkrec Config.params 2 0x00 (decodeOp Config.params 0x00) 0 0)
    emitted := [mkrec Config.params 0 0x06 (decodeOp Config.params 0x06) 0x99 0,
      mkrec Config.params 2 0x00 (decodeOp Config.params 0x00) 0 0] }

/-- NoGapsBetweenRecords: two records of one pass. -/
theorem witness_inv_records : afterE8.Inv ∧ afterE8.passRecords.length = 2 := by
  refine ⟨?_, by decide⟩
  constructor <;> first
    | decide
    | exact ⟨rfl, rfl, rfl⟩

/-- NoGapsBetweenRecords, the clause about the pass function. -/
theorem witness_pass_records : (pass Config.params [0x06, 0x99, 0x00]).1.length = 2 := by decide +kernel

/-- PassEndsInTime, PassDependsOnStreamAlone: the longest run on a stream of one byte, and the shortest. -/
theorem witness_runs :
    (nextOf (runSteps 2 (State.reset.startedOn [0x00]))).isSome = true ∧
    (nextOf (runSteps 3 (State.reset.startedOn [0x00]))).isSome = false ∧
    (nextOf (runSteps 0 (State.reset.startedOn []))).isSome = true := by decide

end Sys2Proof.Tests
end

section
/-! The state after reset (10_state.md R38): its fields, the status outputs computed from the state (R33), and O33. -/

namespace Sys2Proof.Machine

/-! ### The fields of `State.reset` -/

@[simp] theorem reset_pc : State.reset.pc = 0 := rfl
@[simp] theorem reset_phase : State.reset.phase = .opc := rfl
@[simp] theorem reset_opc : State.reset.opc = none := rfl
@[simp] theorem reset_lo : State.reset.lo = none := rfl
@[simp] theorem reset_err : State.reset.err = none := rfl
@[simp] theorem reset_cursor : State.reset.cursor = 0 := rfl
@[simp] theorem reset_outRec : State.reset.outRec = none := rfl
@[simp] theorem reset_errValid : State.reset.errValid = false := rfl

/-! ### The status outputs that are computed from the state

In phase OPC no instruction is in flight and the pass has not ended, so all three outputs of `phase` are 0. -/

theorem busy_eq_false_of_phase_opc {s : State} (h : s.phase = .opc) : s.busy = false := by
  simp [State.busy, h]

theorem done_eq_false_of_phase_opc {s : State} (h : s.phase = .opc) : s.done = false := by
  simp [State.done, h]

theorem error_eq_false_of_phase_opc {s : State} (h : s.phase = .opc) : s.error = false := by
  simp [State.error, h]

theorem outValid_eq_false_iff {s : State} : s.outValid = false ↔ s.outRec = none := by
  simp [State.outValid]

/-- Settles O33: the held fields are those of `State.reset`, and the computed outputs follow from its phase OPC and from its
holding no record. -/
theorem resetValues : Obligations.ResetValues :=
  ⟨reset_pc, reset_phase, reset_opc, reset_lo, reset_err, reset_cursor,
    busy_eq_false_of_phase_opc reset_phase, done_eq_false_of_phase_opc reset_phase,
    error_eq_false_of_phase_opc reset_phase, outValid_eq_false_iff.mpr reset_outRec, reset_errValid⟩

end Sys2Proof.Machine
end

section
/-! The MOV range `01dddsss` under the decision order of R89 (30_encoding.md R90), and O6: step 1 claims one byte of the range,
0x76, step 2 none, and the guard of the MOV range in step 3 always holds. -/

namespace Sys2Proof

/-! ### The guards of step 3: a field is 6 or it is not (R75) -/

@[simp] theorem hasValidDestination_eq_true (op : Byte) : hasValidDestination op = true :=
  Bool.not_or_self (fieldP op == 6)

@[simp] theorem hasValidSource_eq_true (op : Byte) : hasValidSource op = true :=
  Bool.not_or_self (fieldS op == 6)

/-! ### A candidate of the decision list that answers, and one that does not -/

theorem decodeOp_of_exactByte (P : Params) {op : Byte} {d : Decoded} (h : exactByte op = some d) : decodeOp P op = d := by
  simp only [decodeOp, decisionList, List.findSome?_cons, h, Option.getD_some]

theorem exactByte_eq_none {op : Byte} (h : ∀ entry ∈ exactBytes, op ≠ entry.1) : exactByte op = none := by
  have hlookup : exactBytes.lookup op = none := List.lookup_eq_none_iff.mpr fun entry hmem => by simpa using h entry hmem
  simp [exactByte, hlookup]

theorem smallSet_eq_none {set : List Byte} {op : Byte} (m : Mnemonic) (f : Format) (ctx : PairContext) (h : op ∉ set) :
    smallSet set m f ctx op = none :=
  if_neg h

theorem guardedRange_eq_some {mask value op : Byte} {guard : Byte → Bool} (d : Byte → Decoded) (hmask : op &&& mask = value)
    (hguard : guard op = true) : guardedRange mask value guard d op = some (d op) :=
  if_pos ⟨hmask, hguard⟩

/-! ### The MOV range -/

/-- The top two bits are `01`, said by arithmetic and by the mask of step 3. -/
theorem and_mask_of_movRange {op : Byte} (h : op.toNat / 64 = 1) : op &&& 0xC0 = 0x40 := by
  revert op; decide

/-- Step 1 claims no opcode of the range but 0x76. -/
theorem exactByte_eq_none_of_movRange {op : Byte} (h : op.toNat / 64 = 1) (hne : op ≠ 0x76) : exactByte op = none := by
  have honly : ∀ entry ∈ exactBytes, entry.1.toNat / 64 = 1 → entry.1 = 0x76 := by decide
  refine exactByte_eq_none fun entry hmem heq => hne ?_
  rw [heq] at h ⊢
  exact honly entry hmem h

/-- Step 2 claims no opcode of the range: its sets lie outside it. -/
theorem smallSet_eq_none_of_movRange {set : List Byte} {op : Byte} (m : Mnemonic) (f : Format) (ctx : PairContext)
    (h : op.toNat / 64 = 1) (hset : ∀ b ∈ set, b.toNat / 64 ≠ 1) : smallSet set m f ctx op = none :=
  smallSet_eq_none m f ctx fun hmem => hset op hmem h

/-- Step 3 claims the whole range, 0x76 included; the order alone keeps that one from it. -/
theorem movCandidate_of_movRange {op : Byte} (h : op.toNat / 64 = 1) :
    guardedRange 0xC0 0x40 (fun op => hasValidDestination op && hasValidSource op) movDecoded op = some (movDecoded op) :=
  guardedRange_eq_some movDecoded (and_mask_of_movRange h) (by simp)

theorem decodeOp_of_movRange (P : Params) {op : Byte} (h : op.toNat / 64 = 1) (hne : op ≠ 0x76) :
    decodeOp P op = movDecoded op := by
  simp (disch := decide) only [decodeOp, decisionList, List.findSome?_cons, exactByte_eq_none_of_movRange h hne,
    smallSet_eq_none_of_movRange _ _ _ h, movCandidate_of_movRange h, Option.getD_some]

/-- Settles O6: 0x76 by step 1 of the decision list, every other opcode of the range by step 3. -/
theorem hltIsNotMov : Obligations.HltIsNotMov := fun P =>
  ⟨decodeOp_of_exactByte P rfl, fun _ hrange hne => decodeOp_of_movRange P hrange hne⟩

end Sys2Proof
end

section
/-! The record of a completed instruction (40_decode_engine.md R124): the instruction's own meaning emits what `mkrec` builds
from the decision list's answer for the opcode and from the bytes read. Its decoded value is a fact about the 256 opcodes
alone; its operand bytes are those `Instr.ofDecoded` was given. -/

namespace Sys2Proof.Machine

/-! ### The operand bytes of the instruction read -/

theorem unknownRow_operandBytes {op : Byte} {i : Instr} (h : unknownRow op = some i) : i.operandBytes = [] := by
  have hrow : ∀ op : Byte, ∀ i ∈ unknownRow op, i.operandBytes = [] := by decide
  exact hrow op i h

/-- `ofDecoded` takes its operand bytes from the front of the two it is given. -/
theorem ofDecoded_operandBytes_prefix {op b1 b2 : Byte} {d : Decoded} {i : Instr}
    (h : Instr.ofDecoded op d b1 b2 = some i) : i.operandBytes <+: [b1, b2] := by
  obtain ⟨kind, m, _, _, _, _, _, _, _⟩ := d
  cases m
  case shld | lhld | sta | lda | jmp | call | jnz | jz | jnc | jc | jpo | jpe | jp | jm | cnz | cz | cnc | cc | cpo | cpe
      | cp | cm =>
    cases h
    simp [Instr.operandBytes]
  case lxi =>
    obtain ⟨_, _, rfl⟩ := Option.map_eq_some_iff.mp h
    simp [Instr.operandBytes]
  case inx | dad | dcx | pop | push | add | adc | sub | sbb | ana | xra | ora | cmp | inr | dcr | mvi | rst =>
    obtain ⟨_, _, rfl⟩ := Option.map_eq_some_iff.mp h
    exact ⟨_, rfl⟩
  case stax | ldax | mov =>
    obtain ⟨_, _, h⟩ := Option.bind_eq_some_iff.mp h
    obtain ⟨_, _, rfl⟩ := Option.map_eq_some_iff.mp h
    exact ⟨_, rfl⟩
  case nop =>
    cases kind
    case aliased =>
      obtain ⟨-, h⟩ := Option.ite_none_right_eq_some.mp h
      cases h
      exact ⟨_, rfl⟩
    case defined | unknown =>
      cases h
      exact ⟨_, rfl⟩
  case unknown => exact unknownRow_operandBytes h ▸ List.nil_prefix
  all_goals
    cases h
    exact ⟨_, rfl⟩

/-- An instruction has as many of the two bytes as its opcode takes. -/
theorem ofDecoded_operandBytes {op b1 b2 : Byte} {i : Instr}
    (h : Instr.ofDecoded op (decodeOp Config.params op) b1 b2 = some i) : i.operandBytes = [b1, b2].take (nops op) := by
  have hlen := encode_length i
  rw [ofDecoded_opcode h, encode, instrLength, List.length_cons, Nat.add_comm, Nat.add_left_cancel_iff] at hlen
  exact hlen ▸ List.prefix_iff_eq_take.mp (ofDecoded_operandBytes_prefix h)

/-! ### The decoded value its meaning emits -/

/-- The decoded value a record carries: the decode core's outputs (R37) among the fields of the record (R30). -/
def recordDecoded (r : DecodedInstruction) : Decoded :=
  { kind := r.kind, mnemonic := r.mnemonic, format := r.format, nops := r.byteLength - 1,
    dst := r.dst, src := r.src, rp := r.rp, cc := r.cc, rstn := r.rstn }

/-- The decoded value of the record an instruction's meaning emits; `exec_emits_mkrec` says that it is the same in every
state. -/
def meaningDecoded (i : Instr) : Option Decoded :=
  match exec i State.reset with
  | .next t => t.outRec.map recordDecoded
  | .fault _ => none
  | .refused _ => none

/-- The operand bytes have no part in the decoded value (R78). -/
theorem map_meaningDecoded_ofDecoded (op b1 b2 : Byte) (d : Decoded) :
    (Instr.ofDecoded op d b1 b2).map meaningDecoded = (Instr.ofDecoded op d 0 0).map meaningDecoded := by
  obtain ⟨_, m, _, _, dst, _, rp, _, _⟩ := d
  cases m
  case lxi => cases rp <;> rfl
  case mvi => cases dst <;> rfl
  all_goals rfl

theorem map_meaningDecoded_decodeOp (op : Byte) :
    (Instr.ofDecoded op (decodeOp Config.params op) 0 0).map meaningDecoded =
      some (some (decodeOp Config.params op)) := by
  revert op; decide

/-- The meaning of the instruction an opcode spells emits the decision list's answer for that opcode. -/
theorem meaningDecoded_ofDecoded {op b1 b2 : Byte} {i : Instr}
    (h : Instr.ofDecoded op (decodeOp Config.params op) b1 b2 = some i) :
    meaningDecoded i = some (decodeOp Config.params op) := by
  have hmap := map_meaningDecoded_ofDecoded op b1 b2 (decodeOp Config.params op)
  rw [map_meaningDecoded_decodeOp, h] at hmap
  exact Option.some_inj.mp hmap

/-- Every meaning emits the `mkrec` record of its decoded value and the operand bytes the encoder gives it (R124). -/
theorem exec_emits_mkrec (i : Instr) (s : State) :
    ∃ d, meaningDecoded i = some d ∧
      exec i s = s.emit (mkrec Config.params s.pc i.opcode d (i.operandBytes.getD 0 0) (i.operandBytes.getD 1 0)) := by
  cases i
  case shld w | lhld w | sta w | lda w | jmp w | call w | lxi _ w | jnz w | jz w | jnc w | jc w | jpo w | jpe w | jp w
      | jm w | cnz w | cz w | cnc w | cc w | cpo w | cpe w | cp w | cm w =>
    rw [← wordOf_bytes w]
    simp only [Instr.operandBytes, lowByte_wordOf, highByte_wordOf]
    exact ⟨_, rfl, rfl⟩
  all_goals exact ⟨_, rfl, rfl⟩

/-! ### The record -/

/-- `mkrec` looks at no more operand bytes than the decoded value counts. -/
theorem mkrec_take (P : Params) (pc : Word) (op : Byte) (d : Decoded) (b1 b2 : Byte) :
    mkrec P pc op d (([b1, b2].take d.nops).getD 0 0) (([b1, b2].take d.nops).getD 1 0) = mkrec P pc op d b1 b2 := by
  obtain ⟨_, _, _, n, _, _, _, _, _⟩ := d
  match n with
  | 0 => rfl
  | 1 => rfl
  | n + 2 => rfl

theorem mkrec_imm8 {d : Decoded} (h : d.nops = 1) (P : Params) (pc : Word) (op b1 b2 : Byte) :
    (mkrec P pc op d b1 b2).imm8 = some b1 :=
  if_pos h

theorem mkrec_imm16 {d : Decoded} (h : d.nops = 2) (P : Params) (pc : Word) (op b1 b2 : Byte) :
    (mkrec P pc op d b1 b2).imm16 = some (wordOf b1 b2) :=
  if_pos h

/-- The last byte of an instruction emits the record R124 builds from the decode core, whatever the instruction. -/
theorem runDecoded_eq_emit_mkrec (op b1 b2 : Byte) (s : State) :
    runDecoded op b1 b2 s = s.emit (mkrec Config.params s.pc op (decodeOp Config.params op) b1 b2) := by
  obtain ⟨i, hi, hrun⟩ := runDecoded_exec op b1 b2 s
  obtain ⟨d, hd, hexec⟩ := exec_emits_mkrec i s
  obtain rfl : decodeOp Config.params op = d := Option.some_inj.mp ((meaningDecoded_ofDecoded hi).symm.trans hd)
  rw [hrun, hexec, ofDecoded_opcode hi, ofDecoded_operandBytes hi, ← params_nops, mkrec_take]

theorem runDecoded_eq_recorded {op : Byte} {n : Nat} (h : (decodeOp Config.params op).nops = n) (b1 b2 : Byte) (s : State) :
    runDecoded op b1 b2 s =
      .next (s.recorded (1 + n) (mkrec Config.params s.pc op (decodeOp Config.params op) b1 b2)) := by
  rw [runDecoded_eq_emit_mkrec, State.emit, afterEmit_eq_recorded, ← h]
  rfl

end Sys2Proof.Machine
end

section
/-! The step on each stream event at an instruction boundary and on each operand byte (R121 to R123, R125), with O37 to O40,
and the pass over an empty stream (R131), O55. -/

namespace Sys2Proof.Machine

/-! ### What the step is, by phase and event -/

theorem step_opc_byte {s : State} {b : Byte} (hr : s.ready) (hp : s.phase = .opc) (he : s.event = .byte b) :
    step s = if (decodeOp Config.params b).nops = 0 then runDecoded b 0 0 s else .next (s.latchOpcode b) := by
  simp only [step_ready hr, hp, stepOpc, he]

theorem step_op1_byte {s : State} {op b : Byte} (hr : s.ready) (hp : s.phase = .op1) (ho : s.opc = some op)
    (he : s.event = .byte b) :
    step s = if (decodeOp Config.params op).nops = 1 then runDecoded op b 0 s else .next (s.latchLow b) := by
  simp only [step_ready hr, hp, stepOp1, ho, he]

theorem step_op2_byte {s : State} {op low b : Byte} (hr : s.ready) (hp : s.phase = .op2) (ho : s.opc = some op)
    (hl : s.lo = some low) (hn : (decodeOp Config.params op).nops = 2) (he : s.event = .byte b) :
    step s = runDecoded op low b s := by
  simp only [step_ready hr, hp, stepOp2, ho, he, hl, hn, OfNat.ofNat_ne_zero, if_true, if_false]

theorem step_opc_end {s : State} (hr : s.ready) (hp : s.phase = .opc) (he : s.event = .endOfStream) :
    step s = .next s.finishPass := by
  simp only [step_ready hr, hp, stepOpc, he]

/-! ### The obligations -/

/-- Settles O37: an opcode without operand bytes is complete and runs, any other is latched. -/
theorem opcodeByteStep : Obligations.OpcodeByteStep := by
  refine fun s b hready hphase hevent => ⟨fun hnops => ?_, fun hnops => ?_⟩
  · rw [step_opc_byte hready hphase hevent, if_pos hnops, runDecoded_eq_recorded hnops]
  · rw [step_opc_byte hready hphase hevent, if_neg (Nat.ne_of_gt hnops)]
    rfl

/-- Settles O38: the byte completes an instruction of one operand byte, and is the low byte of one of two. -/
theorem firstOperandByteStep : Obligations.FirstOperandByteStep := by
  refine fun s op b hready hphase hopc hevent => ⟨fun hnops => ⟨mkrec_imm8 hnops .., ?_⟩, fun hnops => ?_⟩
  · rw [step_op1_byte hready hphase hopc hevent, if_pos hnops, runDecoded_eq_recorded hnops]
  · rw [step_op1_byte hready hphase hopc hevent, if_neg (by omega)]
    rfl

/-- Settles O39: the byte completes the instruction, whose low byte is latched. -/
theorem secondOperandByteStep : Obligations.SecondOperandByteStep := by
  refine fun s op low b hready hphase hopc hlo hnops hevent => ⟨mkrec_imm16 hnops .., ?_⟩
  rw [step_op2_byte hready hphase hopc hlo hnops hevent, runDecoded_eq_recorded hnops]

/-- Settles O40: the next state is `State.finishPass`. -/
theorem endAtBoundarySucceeds : Obligations.EndAtBoundarySucceeds := fun _ => step_opc_end

/-- Settles O55: the one step finds `End` at the boundary the pass begins at. -/
theorem emptyStreamSucceeds : Obligations.EmptyStreamSucceeds := by
  intro s
  have hstep : step (s.startedOn []) = .next (s.startedOn []).finishPass := step_opc_end ⟨rfl, rfl⟩ rfl rfl
  refine ⟨(s.startedOn []).finishPass, by simp only [runSteps, hstep], ?_⟩
  simp [State.observation, State.outcome, State.passRecords, State.startedOn]

end Sys2Proof.Machine
end

section
/-! No gaps and no overlaps (R132): what `gapless` says of two neighbours and of both ends, and that the pass function's
records are gapless; O50. -/

namespace Sys2Proof.Machine

/-! ### What `gapless` says of single records -/

theorem gapless_head {a stop : Word} {rs : List DecodedInstruction} {r : DecodedInstruction} (h : gapless a rs stop)
    (hr : rs[0]? = some r) : r.address = a := by
  cases rs with
  | nil => cases hr
  | cons r0 rs =>
    cases hr
    exact h.1

theorem gapless_next {a stop : Word} {rs : List DecodedInstruction} {k : Nat} {r r' : DecodedInstruction}
    (h : gapless a rs stop) (hr : rs[k]? = some r) (hr' : rs[k + 1]? = some r') :
    r'.address = r.address + BitVec.ofNat 16 r.byteLength := by
  induction rs generalizing a k with
  | nil => cases hr
  | cons r0 rs ih =>
    obtain ⟨rfl, h⟩ := h
    cases k with
    | zero =>
      cases hr
      exact gapless_head h hr'
    | succ k => exact ih h hr hr'

theorem gapless_last {a stop : Word} {rs : List DecodedInstruction} {r : DecodedInstruction} (h : gapless a rs stop)
    (hr : rs.getLast? = some r) : stop = r.address + BitVec.ofNat 16 r.byteLength := by
  induction rs generalizing a with
  | nil => cases hr
  | cons r0 rs ih =>
    obtain ⟨rfl, h⟩ := h
    cases rs with
    | nil =>
      cases hr
      exact h.symm
    | cons r1 rs => exact ih h hr

/-! ### The pass function is gapless -/

/-- A `mkrec` record in front of a gapless pass that goes on where the record ends. -/
theorem exists_gapless_consRecord_mkrec {P : Params} {pc : Word} {op : Byte} {d : Decoded} {n : Nat} (hn : d.nops = n)
    (b1 b2 : Byte) {p : List DecodedInstruction × PassOutcome}
    (h : ∃ stop, gapless (pc + BitVec.ofNat 16 (1 + n)) p.1 stop) :
    ∃ stop, gapless pc (consRecord (mkrec P pc op d b1 b2) p).1 stop := by
  subst hn
  exact h.imp fun _ hgap => ⟨rfl, hgap⟩

/-- The pass function leaves no gap from the address it begins at. -/
theorem passFrom_gapless (P : Params) (pc : Word) (bytes : List Byte) :
    ∃ stop, gapless pc (passFrom P pc bytes).1 stop := by
  fun_induction passFrom P pc bytes with
  | case1 pc => exact ⟨pc, rfl⟩
  | case2 _ _ _ _ hnops ih => exact exists_gapless_consRecord_mkrec hnops 0 0 ih
  | case3 _ _ _ b1 _ hnops ih => exact exists_gapless_consRecord_mkrec hnops b1 0 ih
  | case4 _ _ _ b1 b2 _ hnops ih => exact exists_gapless_consRecord_mkrec hnops b1 b2 ih
  | case5 pc => exact ⟨pc, rfl⟩

/-! ### The obligation -/

/-- Addition to an address is modulo 2^16 (R31). -/
theorem toNat_add_ofNat (a : Word) (n : Nat) : (a + BitVec.ofNat 16 n).toNat = (a.toNat + n) % 65536 := by
  simp [BitVec.toNat_add]

/-- Settles O50: both halves are facts about any gapless list of records, the pass function's and the invariant's. -/
theorem noGapsBetweenRecords : Obligations.NoGapsBetweenRecords := by
  refine ⟨fun P bytes k r r' hr hr' => ?_, fun s hinv => ⟨fun r hr => ?_, fun k r r' hr hr' => ?_, fun r hr => ?_⟩⟩
  · obtain ⟨_, hgap⟩ := passFrom_gapless P 0 bytes
    rw [gapless_next hgap hr hr', toNat_add_ofNat]
  · exact gapless_head hinv.no_gap hr
  · rw [gapless_next hinv.no_gap hr hr', toNat_add_ofNat]
  · rw [gapless_last hinv.no_gap hr, toNat_add_ofNat]

end Sys2Proof.Machine
end

section
/-! An opcode of `UNKNOWN_SET` (30_encoding.md R88, 60_exceptions.md R251) under the decision list and in a pass, and O7. -/

namespace Sys2Proof.Machine

theorem mem_unknownSet {P : Params} {op : Byte} : op ∈ P.unknownSet ↔ op ∈ Config.unusedOpcodes ∧ op ∉ P.nopAliasSet := by
  simp [Params.unknownSet]

/-- Only step 5 of the decision list answers, with the fallback (R88, R245). -/
theorem decodeOp_of_mem_unknownSet {P : Params} {op : Byte} (h : op ∈ P.unknownSet) : decodeOp P op = unknownDecoded := by
  obtain ⟨hunused, halias⟩ := mem_unknownSet.mp h
  rw [decodeOp_eq, if_pos hunused, if_neg halias]

theorem mkrec_unknownDecoded (P : Params) (pc : Word) (op b1 b2 : Byte) :
    mkrec P pc op unknownDecoded b1 b2 =
      { address := pc, opcode := op, kind := .unknown, mnemonic := .unknown, format := .unknown,
        byteLength := 1, operands := [.opcode op] } :=
  rfl

/-- Settles O7: the fallback takes no operand byte, so the pass goes on right behind the opcode. -/
theorem unknownOpcodeIsARecord : Obligations.UnknownOpcodeIsARecord := by
  intro P _ op hop pc rest
  have hdecode : decodeOp P op = unknownDecoded := decodeOp_of_mem_unknownSet hop
  have hnops : (decodeOp P op).nops = 0 := congrArg Decoded.nops hdecode
  rw [passFrom_zero P pc rest hnops, hdecode, mkrec_unknownDecoded]

end Sys2Proof.Machine
end

section
/-! The decision list for every value of the parameters: the operand-byte count (R81), the kinds (R85, R102), the fields of a
record (R43) and the order of MOV's operands (R97); O3, O5, O13, O14. -/

namespace Sys2Proof

/-! ### The length classifier -/

theorem nops_eq_one_iff (op : Byte) : nops op = 1 ↔ op ∈ oneOperandByte := by
  unfold nops
  split
  · next hone => simp [hone]
  · next hone => split <;> simp [hone]

/-- R81's two sets share no opcode, so the order in which `nops` tests them does not matter. -/
theorem nops_eq_two_iff (op : Byte) : nops op = 2 ↔ op ∈ twoOperandBytes := by
  have hdisjoint : ∀ op ∈ twoOperandBytes, op ∉ oneOperandByte := by decide
  unfold nops
  split
  · next hone => simpa using fun htwo => hdisjoint op htwo hone
  · split <;> simp [*]

theorem nops_of_mem_unusedOpcodes {op : Byte} (h : op ∈ Config.unusedOpcodes) : nops op = 0 := by
  revert op; decide

/-- The operand-byte count does not depend on the parameters: the opcodes they move take no operand byte. -/
@[simp] theorem decodeOp_nops (P : Params) (op : Byte) : (decodeOp P op).nops = nops op := by
  rw [decodeOp_eq]
  split
  · next hunused =>
    rw [nops_of_mem_unusedOpcodes hunused]
    split <;> rfl
  · exact params_nops op

/-- Settles O3: the classifier's tests are R81's sets, and the decision list counts as it does. -/
theorem lengthClassifierSets : Obligations.LengthClassifierSets :=
  ⟨nops_eq_one_iff, nops_eq_two_iff, fun op => ⟨nops_le op, rfl⟩, decodeOp_nops⟩

/-! ### The kinds -/

theorem decodeOp_of_mem_nopAliasSet {P : Params} {op : Byte} (hunused : op ∈ Config.unusedOpcodes)
    (hmem : op ∈ P.nopAliasSet) : decodeOp P op = { Decoded.plain .nop .none with kind := .aliased } := by
  rw [decodeOp_eq, if_pos hunused, if_pos hmem]

theorem decodeOp_of_not_mem_unusedOpcodes (P : Params) {op : Byte} (h : op ∉ Config.unusedOpcodes) :
    decodeOp P op = decodeOp Config.params op := by
  rw [decodeOp_eq, if_neg h]

theorem decodeOp_kind_of_not_mem_unusedOpcodes (P : Params) {op : Byte} (h : op ∉ Config.unusedOpcodes) :
    (decodeOp P op).kind = .defined := by
  rw [decodeOp_of_not_mem_unusedOpcodes P h]
  revert op; decide

/-- Settles O5: inside the twelve unused opcodes membership in the set decides the kind, outside them it is DEFINED. -/
theorem kindsPartitionOpcodes : Obligations.KindsPartitionOpcodes := by
  refine ⟨by decide, fun P hwf op => ?_⟩
  rw [Machine.mem_unknownSet]
  by_cases hunused : op ∈ Config.unusedOpcodes
  · by_cases hmem : op ∈ P.nopAliasSet
    · simp [decodeOp_of_mem_nopAliasSet hunused hmem, hunused, hmem]
    · simp [Machine.decodeOp_of_mem_unknownSet (Machine.mem_unknownSet.mpr ⟨hunused, hmem⟩), unknownDecoded, hunused, hmem]
  · have hmem : op ∉ P.nopAliasSet := fun hmem => hunused (hwf op hmem)
    simp [decodeOp_kind_of_not_mem_unusedOpcodes P hunused, hunused, hmem]

end Sys2Proof

namespace Sys2Proof.Machine

/-! ### The fields of a record -/

/-- The outputs of the decode core are valid exactly where the table of R30 says for their format (R37, R43). -/
abbrev decodedValid (d : Decoded) : Prop :=
  d.nops = d.format.operandBytes ∧
  d.dst.isSome = hasDst d.format ∧
  d.src.isSome = hasSrc d.format ∧
  d.rp.map PairField.ctx = pairContext d.format ∧
  d.cc.isSome = hasCond d.format ∧
  d.rstn.isSome = (d.format == .rst)

theorem decodeOp_valid (P : Params) (op : Byte) : decodedValid (decodeOp P op) := by
  have hdefault : ∀ op : Byte, decodedValid (decodeOp Config.params op) := by decide
  rw [decodeOp_eq]
  split
  · split <;> decide
  · exact hdefault op

/-- `mkrec` copies the decode core's outputs and adds the operand bytes the length asks for (R124). -/
theorem mkrec_recordValid {P : Params} {op : Byte} {d : Decoded} (h : decodedValid d) (hn : d.nops = nops op) (pc : Word)
    (b1 b2 : Byte) : recordValid (mkrec P pc op d b1 b2) := by
  obtain ⟨hnops, hdst, hsrc, hrp, hcc, hrstn⟩ := h
  refine ⟨congrArg (1 + ·) hn, congrArg (1 + ·) hnops, hdst, hsrc, hrp, hcc, hrstn, ?_, ?_⟩
  · rcases nops_cases op with h | h | h <;> simp [mkrec, hn, h]
  · rcases nops_cases op with h | h | h <;> simp [mkrec, hn, h]

/-- Settles O13: the decode core's outputs are valid for every parameter, and `mkrec` keeps that. -/
theorem recordsValidForEveryParameter : Obligations.RecordsValidForEveryParameter :=
  fun P pc op b1 b2 => mkrec_recordValid (decodeOp_valid P op) (decodeOp_nops P op) pc b1 b2

/-! ### The order of MOV's operands -/

theorem decodeOp_format_eq_regPRegS_iff (P : Params) (op : Byte) :
    (decodeOp P op).format = .regPRegS ↔ (decodeOp P op).mnemonic = .mov := by
  have hdefault : ∀ op : Byte,
      (decodeOp Config.params op).format = .regPRegS ↔ (decodeOp Config.params op).mnemonic = .mov := by decide
  rw [decodeOp_eq]
  split
  · split <;> decide
  · exact hdefault op

/-- Only the format of MOV has its operand list ordered by the parameter (R97). -/
theorem mkrec_eq_of_format_ne {P P' : Params} {d : Decoded} (h : d.format ≠ .regPRegS) (pc : Word) (op b1 b2 : Byte) :
    mkrec P pc op d b1 b2 = mkrec P' pc op d b1 b2 := by
  obtain ⟨_, _, format, _, _, _, _, _, _⟩ := d
  cases format
  case regPRegS => exact absurd rfl h
  all_goals rfl

theorem mkrec_operands_of_regPRegS {d : Decoded} {dst src : Register} (hformat : d.format = .regPRegS)
    (hdst : d.dst = some dst) (hsrc : d.src = some src) (P : Params) (pc : Word) (op b1 b2 : Byte) :
    (mkrec P pc op d b1 b2).operands = movOperands P dst src := by
  simp only [mkrec, operandList, hformat, hdst, hsrc]
  rfl

/-- MOV's decoded value has both its registers. -/
theorem decodeOp_mov_registers {P : Params} {op : Byte} (h : (decodeOp P op).mnemonic = .mov) :
    ∃ dst src, (decodeOp P op).dst = some dst ∧ (decodeOp P op).src = some src := by
  obtain ⟨-, hdst, hsrc, -⟩ := decodeOp_valid P op
  rw [(decodeOp_format_eq_regPRegS_iff P op).mpr h] at hdst hsrc
  obtain ⟨dst, hdst⟩ := Option.isSome_iff_exists.mp hdst
  obtain ⟨src, hsrc⟩ := Option.isSome_iff_exists.mp hsrc
  exact ⟨dst, src, hdst, hsrc⟩

/-- Settles O14: the decision list does not see the order, and the operand list sees it in the format of MOV alone. -/
theorem movOrderIsTextOnly : Obligations.MovOrderIsTextOnly := by
  intro P pc op b1 b2 P1 P2 r1 r2
  have hformat := decodeOp_format_eq_regPRegS_iff P1 op
  refine ⟨rfl, fun hmov => ?_, fun hmov => ?_⟩
  · exact mkrec_eq_of_format_ne (fun h => hmov (hformat.mp h)) pc op b1 b2
  · obtain ⟨dst, src, hdst, hsrc⟩ := decodeOp_mov_registers hmov
    have hoperands (P : Params) := mkrec_operands_of_regPRegS (hformat.mpr hmov) hdst hsrc P pc op b1 b2
    exact ⟨dst, src, hdst, hsrc, hoperands P1, hoperands P2⟩

end Sys2Proof.Machine
end

section
/-! The decoder and the encoder undo one another (30_encoding.md section 2): O9, O10, O12 and the samples of O11. -/

namespace Sys2Proof

/-! ### What the decoder accepts -/

theorem decode_eq_ok_iff {op : Byte} {bs rest : List Byte} {i : Instr} :
    decode (op :: bs) = .ok (i, rest) ↔
      nops op ≤ bs.length ∧ Instr.ofDecoded op (decodeOp Config.params op) (bs.getD 0 0) (bs.getD 1 0) = some i ∧
        bs.drop (nops op) = rest := by
  rw [decode_cons]
  split
  · next hshort => simp [Nat.not_le.mpr hshort]
  · next hlong =>
    cases Instr.ofDecoded op (decodeOp Config.params op) (bs.getD 0 0) (bs.getD 1 0) <;> simp [Nat.not_lt.mp hlong]

/-- The decoder answers no term that `wellFormed` excludes. -/
theorem ofDecoded_wellFormed {op b1 b2 : Byte} {i : Instr}
    (h : Instr.ofDecoded op (decodeOp Config.params op) b1 b2 = some i) : i.wellFormed = true := by
  have hbytes (d : Decoded) :
      (Instr.ofDecoded op d b1 b2).map Instr.wellFormed = (Instr.ofDecoded op d 0 0).map Instr.wellFormed := by
    obtain ⟨_, m, _, _, dst, _, rp, _, _⟩ := d
    cases m
    case lxi => cases rp <;> rfl
    case mvi => cases dst <;> rfl
    all_goals rfl
  have hzero : ∀ op : Byte, ∀ i ∈ Instr.ofDecoded op (decodeOp Config.params op) 0 0, i.wellFormed = true := by decide
  have hmap := hbytes (decodeOp Config.params op)
  rw [h, Option.map_some, eq_comm, Option.map_eq_some_iff] at hmap
  obtain ⟨j, hj, hwf⟩ := hmap
  exact hwf ▸ hzero op j hj

/-! ### The encoder's bytes give the instruction back -/

@[simp] theorem fieldP_mov (dst src : Register) : fieldP (Instr.mov dst src).opcode = dst.code := by
  cases dst <;> cases src <;> rfl

@[simp] theorem fieldS_mov (dst src : Register) : fieldS (Instr.mov dst src).opcode = src.code := by
  cases dst <;> cases src <;> rfl

/-- M,M is the one form whose byte, HLT's, the decision list does not answer with MOV (R90). -/
theorem mov_opcode_ne_hlt {dst src : Register} (h : (Instr.mov dst src).wellFormed = true) :
    (Instr.mov dst src).opcode ≠ 0x76 := by
  revert h
  cases dst <;> cases src <;> decide

theorem mov_opcode_movRange (dst src : Register) : (Instr.mov dst src).opcode.toNat / 64 = 1 := by
  cases dst <;> cases src <;> rfl

theorem ofDecoded_mov {dst src : Register} (h : (Instr.mov dst src).wellFormed = true) (b1 b2 : Byte) :
    Instr.ofDecoded (Instr.mov dst src).opcode (decodeOp Config.params (Instr.mov dst src).opcode) b1 b2 =
      some (.mov dst src) := by
  rw [decodeOp_of_movRange Config.params (mov_opcode_movRange dst src) (mov_opcode_ne_hlt h)]
  simp [Instr.ofDecoded, movDecoded, Decoded.plain]

theorem ofDecoded_rst (n : BitVec 3) (b1 b2 : Byte) :
    Instr.ofDecoded (Instr.rst n).opcode (decodeOp Config.params (Instr.rst n).opcode) b1 b2 = some (.rst n) := by
  have hdecode : ∀ n : BitVec 3,
      decodeOp Config.params (Instr.rst n).opcode = { Decoded.plain .rst .rst with rstn := some n } := by decide
  rw [hdecode]
  rfl

theorem ofDecoded_nopAlias {x : BitVec 3} (h : (Instr.nopAlias x).wellFormed = true) (b1 b2 : Byte) :
    Instr.ofDecoded (Instr.nopAlias x).opcode (decodeOp Config.params (Instr.nopAlias x).opcode) b1 b2 =
      some (.nopAlias x) := by
  have hbits : ∀ x : BitVec 3, (Instr.nopAlias x).opcode &&& 0xC7 = 0 ∧ fieldP (Instr.nopAlias x).opcode = x := by decide
  have hunused : ∀ op ∈ Config.params.nopAliasSet, op ∈ Config.unusedOpcodes := by decide
  have hmem : (Instr.nopAlias x).opcode ∈ Config.params.nopAliasSet := List.contains_iff_mem.mp h
  obtain ⟨hmask, hfield⟩ := hbits x
  rw [decodeOp_of_mem_nopAliasSet (hunused _ hmem) hmem]
  exact (if_pos hmask).trans (congrArg (fun x => some (Instr.nopAlias x)) hfield)

/-- The encoder's bytes, whatever follows them, give the instruction back: most opcodes are literal once the register or
pair is, so the decision list evaluates; a word is put together from its two bytes again. -/
theorem ofDecoded_encode {i : Instr} (h : i.wellFormed = true) (rest : List Byte) :
    Instr.ofDecoded i.opcode (decodeOp Config.params i.opcode) ((i.operandBytes ++ rest).getD 0 0)
      ((i.operandBytes ++ rest).getD 1 0) = some i := by
  cases i
  case shld w | lhld w | sta w | lda w | jmp w | call w | jnz w | jz w | jnc w | jc w | jpo w | jpe w | jp w | jm w
      | cnz w | cz w | cnc w | cc w | cpo w | cpe w | cp w | cm w =>
    rw [← wordOf_bytes w]
    simp only [Instr.opcode, Instr.operandBytes, lowByte_wordOf, highByte_wordOf]
    rfl
  case lxi p w =>
    rw [← wordOf_bytes w]
    simp only [Instr.opcode, Instr.operandBytes, lowByte_wordOf, highByte_wordOf]
    cases p <;> rfl
  case inx p | dad p | dcx p | pop p | push p | stax p | ldax p => cases p <;> rfl
  case add r | adc r | sub r | sbb r | ana r | xra r | ora r | cmp r | inr r | dcr r => cases r <;> rfl
  case mvi r v =>
    simp only [Instr.opcode]
    cases r <;> rfl
  case mov => exact ofDecoded_mov h _ _
  case rst => exact ofDecoded_rst _ _ _
  case nopAlias => exact ofDecoded_nopAlias h _ _
  all_goals rfl

theorem operandBytes_length (i : Instr) : i.operandBytes.length = nops i.opcode := by
  simpa [encode, instrLength, Nat.add_comm] using Machine.encode_length i

/-! ### The obligations -/

/-- Settles O9: the encoding is long enough, its bytes give the instruction, and what follows them is left. -/
theorem decodeEncodeRoundTrip : Obligations.DecodeEncodeRoundTrip := by
  intro i rest hwf
  refine decode_eq_ok_iff.mpr ⟨?_, ofDecoded_encode hwf rest, ?_⟩
  · simp [operandBytes_length]
  · simp [← operandBytes_length]

/-- The operand bytes of the instruction read are those at the front of the stream. -/
theorem ofDecoded_operandBytes_eq_take {op : Byte} {bs : List Byte} {i : Instr} (hlen : nops op ≤ bs.length)
    (h : Instr.ofDecoded op (decodeOp Config.params op) (bs.getD 0 0) (bs.getD 1 0) = some i) :
    i.operandBytes = bs.take (nops op) := by
  rw [Machine.ofDecoded_operandBytes h]
  rcases nops_cases op with hn | hn | hn <;> rw [hn] at hlen ⊢
  · rfl
  · obtain ⟨b1, _, rfl⟩ := List.exists_cons_of_length_pos hlen
    rfl
  · match bs, hlen with
    | _ :: _ :: _, _ => rfl

/-- Settles O10: the opcode and the operand bytes are those read, and the rest is what is left. -/
theorem encodeDecodeBack : Obligations.EncodeDecodeBack := by
  intro bytes rest i h
  cases bytes with
  | nil => cases h
  | cons op bs =>
    obtain ⟨hlen, hi, rfl⟩ := decode_eq_ok_iff.mp h
    refine ⟨ofDecoded_wellFormed hi, ?_⟩
    rw [encode, ofDecoded_opcode hi, ofDecoded_operandBytes_eq_take hlen hi, List.cons_append, List.take_append_drop]

/-- Settles O12: both instructions have the opcode read, and it gives their length. -/
theorem lengthDependsOnOpcodeAlone : Obligations.LengthDependsOnOpcodeAlone := by
  intro op bs bs' rest rest' i i' h h'
  obtain ⟨-, hi, -⟩ := decode_eq_ok_iff.mp h
  obtain ⟨-, hi', -⟩ := decode_eq_ok_iff.mp h'
  rw [Machine.encode_length, Machine.encode_length, ofDecoded_opcode hi, ofDecoded_opcode hi']
  exact ⟨rfl, rfl, rfl, rfl⟩

/-- Settles O11: each sample is the encoding of its instruction, which the round trip gives back. -/
theorem sampleWordsDecode : Obligations.SampleWordsDecode :=
  ⟨decodeEncodeRoundTrip (.mov .m .c) [] rfl, decodeEncodeRoundTrip (.dcr .a) [] rfl,
    decodeEncodeRoundTrip (.ani 0x0F) [] rfl, decodeEncodeRoundTrip (.jp 0x1234) [] rfl,
    decodeEncodeRoundTrip (.pop .psw) [] rfl, decodeEncodeRoundTrip (.nopAlias 6) [] rfl,
    decodeEncodeRoundTrip .unknownED [] rfl⟩

end Sys2Proof
end

section
/-! The instructions' meanings against the decode core (40_decode_engine.md R124): O31 and O32; and the record of each row of
the table, O15 to O30, each `emit_eq_recorded` of the operand form its meaning emits. -/

namespace Sys2Proof.Machine

theorem emit_eq_recorded (s : State) (r : DecodedInstruction) : s.emit r = .next (s.recorded r.byteLength r) :=
  congrArg Host.Outcome.next (afterEmit_eq_recorded s r)

/-! ### Agreement with the decode core, and the frame -/

/-- Settles O31: the meaning emits `mkrec` of its decoded value, which is the decision list's answer for an opcode that gives
the instruction back. -/
theorem meaningsAgreeWithDecodeCore : Obligations.MeaningsAgreeWithDecodeCore := by
  intro i s hwf
  obtain ⟨d, hd, hexec⟩ := exec_emits_mkrec i s
  obtain rfl : decodeOp Config.params i.opcode = d :=
    Option.some_inj.mp ((meaningDecoded_ofDecoded (ofDecoded_encode hwf [])).symm.trans hd)
  have hlen : 1 + (decodeOp Config.params i.opcode).nops = (encode i).length := by
    rw [params_nops, encode_length, instrLength]
  rw [hexec, emit_eq_recorded, ← hlen]
  rfl

/-- Settles O32: `exec` emits one record at `pc` and of the instruction's length; the rest is the frame of `afterEmit`. -/
theorem pcAdvancesByLengthAlways : Obligations.PcAdvancesByLengthAlways := by
  intro i s
  obtain ⟨r, hexec, haddress, -, hlen, -⟩ := exec_emits i s
  refine ⟨s.afterEmit r, hexec, ?_, rfl, rfl, rfl, rfl, rfl, rfl, rfl, r, rfl, rfl, haddress⟩
  rw [afterEmit_pc, toNat_add_ofNat, hlen]

/-! ### The record of each row of the table -/

/-- Settles O15. -/
theorem movRecord : Obligations.MovRecord := fun _ _ s _ => emit_eq_recorded s _

/-- Settles O16. -/
theorem mviRecord : Obligations.MviRecord := fun _ _ s => emit_eq_recorded s _

/-- Settles O17, pair by pair. -/
theorem lxiRecord : Obligations.LxiRecord := by
  intro imm s row hrow
  fin_cases hrow <;> exact emit_eq_recorded s _

/-- Settles O18, row by row. -/
theorem directAddressRecords : Obligations.DirectAddressRecords := by
  intro addr s row hrow
  fin_cases hrow <;> exact emit_eq_recorded s _

/-- Settles O19, row by row. -/
theorem ldaxStaxRecords : Obligations.LdaxStaxRecords := by
  intro s row hrow
  fin_cases hrow <;> exact emit_eq_recorded s _

/-- Settles O20, row by row. -/
theorem aluRegisterRecords : Obligations.AluRegisterRecords := by
  intro src s row hrow
  fin_cases hrow <;> exact emit_eq_recorded s _

/-- Settles O21, row by row. -/
theorem inrDcrRecords : Obligations.InrDcrRecords := by
  intro dst s row hrow
  fin_cases hrow <;> exact emit_eq_recorded s _

/-- Settles O22, pair by pair and row by row. -/
theorem pairArithmeticRecords : Obligations.PairArithmeticRecords := by
  intro s p hp row hrow
  fin_cases hp <;> fin_cases hrow <;> exact emit_eq_recorded s _

/-- Settles O23, row by row. -/
theorem oneByteOperandRecords : Obligations.OneByteOperandRecords := by
  intro v s row hrow
  fin_cases hrow <;> exact emit_eq_recorded s _

/-- Settles O24, row by row. -/
theorem noOperandRecords : Obligations.NoOperandRecords := by
  intro s row hrow
  fin_cases hrow <;> exact emit_eq_recorded s _

/-- Settles O25, row by row. -/
theorem conditionalAddressRecords : Obligations.ConditionalAddressRecords := by
  intro addr s row hrow
  fin_cases hrow <;> exact emit_eq_recorded s _

/-- Settles O26, row by row. -/
theorem conditionalReturnRecords : Obligations.ConditionalReturnRecords := by
  intro s row hrow
  fin_cases hrow <;> exact emit_eq_recorded s _

/-- Settles O27. -/
theorem rstRecord : Obligations.RstRecord := fun _ s => emit_eq_recorded s _

/-- Settles O28, pair by pair and row by row. -/
theorem pushPopRecords : Obligations.PushPopRecords := by
  intro s p hp row hrow
  fin_cases hp <;> fin_cases hrow <;> exact emit_eq_recorded s _

/-- Settles O29. -/
theorem nopAliasRecord : Obligations.NopAliasRecord := fun _ s _ => emit_eq_recorded s _

/-- Settles O30, row by row. -/
theorem unknownRecords : Obligations.UnknownRecords := by
  intro s row hrow
  fin_cases hrow <;> exact emit_eq_recorded s _

end Sys2Proof.Machine
end

section
/-! What one step can do (40_decode_engine.md R121 to R127), as a relation with one rule for each thing it does, which holds
exactly where `step` answers; and where the machine steps: O34 to O36, O41, O56, O57. -/

namespace Sys2Proof.Machine

/-! ### The record of a byte step -/

/-- The record of an opcode and its operand bytes, read at `pc` (R124). -/
def State.recordOf (s : State) (op b1 b2 : Byte) : DecodedInstruction :=
  mkrec Config.params s.pc op (decodeOp Config.params op) b1 b2

@[simp] theorem recordOf_byteLength (s : State) (op b1 b2 : Byte) : (s.recordOf op b1 b2).byteLength = 1 + nops op :=
  congrArg (1 + ·) (params_nops op)

theorem recordOf_valid (s : State) (op b1 b2 : Byte) : recordValid (s.recordOf op b1 b2) :=
  recordsValidForEveryParameter Config.params s.pc op b1 b2

/-- A record without operand bytes takes neither byte (R124). -/
theorem recordOf_of_nops_eq_zero {op : Byte} (h : nops op = 0) (s : State) (b1 b2 c1 c2 : Byte) :
    s.recordOf op b1 b2 = s.recordOf op c1 c2 := by
  simp [State.recordOf, mkrec, h]

/-- A record without a second operand byte does not take it (R124). -/
theorem recordOf_of_nops_ne_two {op : Byte} (h : nops op ≠ 2) (s : State) (b1 b2 c2 : Byte) :
    s.recordOf op b1 b2 = s.recordOf op b1 c2 := by
  simp [State.recordOf, mkrec, h]

theorem runDecoded_eq_afterRecord (op b1 b2 : Byte) (s : State) :
    runDecoded op b1 b2 s = .next (s.afterRecord (1 + nops op) (s.recordOf op b1 b2)) := by
  rw [runDecoded_eq_emit_mkrec, ← recordOf_byteLength s op b1 b2]
  rfl

theorem exec_eq_afterRecord {op b1 b2 : Byte} {i : Instr}
    (h : Instr.ofDecoded op (decodeOp Config.params op) b1 b2 = some i) (s : State) :
    exec i s = .next (s.afterRecord (1 + nops op) (s.recordOf op b1 b2)) := by
  rw [← runDecoded_eq_afterRecord]
  simp only [runDecoded, h]

/-- In phase OP2 every byte emits a record and advances `pc` by 3, whatever the latched opcode (R123, R128). -/
theorem step_op2_byte_eq_afterRecord {s : State} {op low b : Byte} (hr : s.ready) (hp : s.phase = .op2)
    (ho : s.opc = some op) (hl : s.lo = some low ∨ nops op = 0) (he : s.event = .byte b) :
    step s = .next (s.afterRecord 3 (s.recordOf op low b)) := by
  simp only [step_ready hr, hp, stepOp2, ho, he, params_nops]
  by_cases hzero : nops op = 0
  · rw [recordOf_of_nops_eq_zero hzero s low b 0 b, if_pos hzero, State.recordOf]
  · have hl := hl.resolve_right hzero
    by_cases htwo : nops op = 2
    · simp [hl, htwo, runDecoded_eq_afterRecord]
    · simp [hl, hzero, htwo, State.recordOf]

/-! ### The step that consumes the last byte of an instruction, and the record it emits -/

theorem step_opc_complete {s : State} {op : Byte} (hr : s.ready) (hp : s.phase = .opc) (he : s.event = .byte op)
    (hn : nops op = 0) (b1 b2 : Byte) : step s = .next (s.afterRecord (1 + nops op) (s.recordOf op b1 b2)) := by
  rw [step_opc_byte hr hp he, params_nops, if_pos hn, runDecoded_eq_afterRecord,
    recordOf_of_nops_eq_zero hn s 0 0 b1 b2]

theorem step_op1_complete {s : State} {op b1 : Byte} (hr : s.ready) (hp : s.phase = .op1) (ho : s.opc = some op)
    (he : s.event = .byte b1) (hn : nops op = 1) (b2 : Byte) :
    step s = .next (s.afterRecord (1 + nops op) (s.recordOf op b1 b2)) := by
  rw [step_op1_byte hr hp ho he, params_nops, if_pos hn, runDecoded_eq_afterRecord,
    recordOf_of_nops_ne_two (by simp [hn]) s b1 0 b2]

theorem step_op2_complete {s : State} {op b1 b2 : Byte} (hr : s.ready) (hp : s.phase = .op2) (ho : s.opc = some op)
    (hl : s.lo = some b1) (he : s.event = .byte b2) (hn : nops op = 2) :
    step s = .next (s.afterRecord (1 + nops op) (s.recordOf op b1 b2)) := by
  rw [step_op2_byte_eq_afterRecord hr hp ho (.inl hl) he, hn]

/-! ### The relation -/

/-- What a step does to `s`, one rule for each: a pending `start` is taken; the pass ends; an opcode or a low byte is latched;
the pass fails; an instruction is complete; or phase OP2 meets an opcode no run latches there (log entry 3). -/
inductive StepEffect (s : State) : State → Prop
  | start {m : Memory} (hstart : s.start = some m) : StepEffect s (s.beginPass m)
  | finish (hready : s.ready) (hphase : s.phase = .opc) (hevent : s.event = .endOfStream) : StepEffect s s.finishPass
  | latchOpcode {op : Byte} (hready : s.ready) (hphase : s.phase = .opc) (hevent : s.event = .byte op)
      (hnops : nops op ≠ 0) : StepEffect s (s.latchOpcode op)
  | latchLow {op b : Byte} (hready : s.ready) (hphase : s.phase = .op1) (hopc : s.opc = some op)
      (hevent : s.event = .byte b) (hnops : nops op ≠ 1) : StepEffect s (s.latchLow b)
  | truncate {op : Byte} (hready : s.ready) (hphase : s.phase = .op1 ∨ s.phase = .op2) (hopc : s.opc = some op)
      (hevent : s.event = .endOfStream) : StepEffect s (s.raiseTruncated op)
  | complete {op b1 b2 : Byte} (hbytes : Completes s op b1 b2) :
      StepEffect s (s.afterRecord (1 + nops op) (s.recordOf op b1 b2))
  | overrun {op low b : Byte} (hready : s.ready) (hphase : s.phase = .op2) (hopc : s.opc = some op)
      (hlo : s.lo = some low ∨ nops op = 0) (hevent : s.event = .byte b) (hnops : nops op ≠ 2) :
      StepEffect s (s.afterRecord 3 (s.recordOf op low b))

theorem stepEffect_of_step {s t : State} (h : step s = .next t) : StepEffect s t := by
  obtain ⟨m, hstart, rfl⟩ | ⟨hr, hp, he, rfl⟩ | ⟨op, hr, hp, he, hn, rfl⟩ | ⟨op, b, hr, hp, ho, he, hn, rfl⟩ |
    ⟨op, hr, hp, ho, he, rfl⟩ | ⟨op, b1, b2, i, hbytes, hi, hexec⟩ | ⟨op, low, b, hr, hp, ho, hl, he, hn, rfl⟩ := step_cases h
  · exact .start hstart
  · exact .finish hr hp he
  · exact .latchOpcode hr hp he hn
  · exact .latchLow hr hp ho he hn
  · exact .truncate hr hp ho he
  · rw [exec_eq_afterRecord hi] at hexec
    cases hexec
    exact .complete hbytes
  · exact .overrun hr hp ho hl he hn

theorem step_of_completes {s : State} {op b1 b2 : Byte} (h : Completes s op b1 b2) :
    step s = .next (s.afterRecord (1 + nops op) (s.recordOf op b1 b2)) := by
  obtain ⟨hr, ⟨hp, he, hn, -, -⟩ | ⟨hp, ho, he, hn, -⟩ | ⟨hp, ho, hl, he, hn⟩⟩ := h
  · exact step_opc_complete hr hp he hn b1 b2
  · exact step_op1_complete hr hp ho he hn b2
  · exact step_op2_complete hr hp ho hl he hn

theorem step_end_eq_raiseTruncated {s : State} {op : Byte} (hr : s.ready) (hp : s.phase = .op1 ∨ s.phase = .op2)
    (ho : s.opc = some op) (he : s.event = .endOfStream) : step s = .next (s.raiseTruncated op) := by
  rcases hp with hp | hp
  · simp only [step_ready hr, hp, stepOp1, ho, he]
  · simp only [step_ready hr, hp, stepOp2, ho, he]

theorem step_of_stepEffect {s t : State} (h : StepEffect s t) : step s = .next t := by
  cases h with
  | start hstart => exact step_start hstart
  | finish hr hp he => exact step_opc_end hr hp he
  | latchOpcode hr hp he hn => rw [step_opc_byte hr hp he, params_nops, if_neg hn]
  | latchLow hr hp ho he hn => rw [step_op1_byte hr hp ho he, params_nops, if_neg hn]
  | truncate hr hp ho he => exact step_end_eq_raiseTruncated hr hp ho he
  | complete hbytes => exact step_of_completes hbytes
  | overrun hr hp ho hl he _ => exact step_op2_byte_eq_afterRecord hr hp ho hl he

/-! ### Start, the terminal phases and the failure -/

/-- Settles O34: the step is `State.beginPass`, whose fields are those of the reset state. -/
theorem startBeginsANewPass : Obligations.StartBeginsANewPass := fun s m hstart =>
  ⟨s.beginPass m, step_start hstart, rfl, rfl, rfl, rfl, rfl, rfl, rfl, rfl, rfl, rfl, rfl, rfl, rfl, rfl, rfl,
    List.drop_length⟩

/-- Without a pending `start` a step finds the block started and in no terminal phase. -/
theorem StepEffect.ready_of_start_eq_none {s t : State} (h : StepEffect s t) (hstart : s.start = none) :
    s.ready ∧ s.phase ≠ .done ∧ s.phase ≠ .err := by
  cases h with
  | start hsome => simp [hstart] at hsome
  | finish hr hp _ | latchOpcode hr hp _ _ | latchLow hr hp _ _ _ | overrun hr hp _ _ _ _ => simp [hr, hp]
  | truncate hr hp _ _ => rcases hp with hp | hp <;> simp [hr, hp]
  | complete hbytes =>
    obtain ⟨hr, ⟨hp, _⟩ | ⟨hp, _⟩ | ⟨hp, _⟩⟩ := hbytes <;> simp [hr, hp]

/-- Settles O35. -/
theorem noStepBeforeStart : Obligations.NoStepBeforeStart := by
  intro s t hstart hstarted h
  obtain ⟨⟨-, hready⟩, -⟩ := (stepEffect_of_step h).ready_of_start_eq_none hstart
  simp [hstarted] at hready

/-- Settles O36: a step from a terminal phase takes a `start`, so there is none without. -/
theorem terminalPhasesHaveNoStep : Obligations.TerminalPhasesHaveNoStep := by
  intro s hphase
  have hnone (hstart : s.start = none) (t : State) : step s ≠ .next t := by
    intro h
    obtain ⟨-, hdone, herr⟩ := (stepEffect_of_step h).ready_of_start_eq_none hstart
    exact hphase.elim hdone herr
  refine ⟨hnone, fun t h => ?_⟩
  cases hstart : s.start with
  | none => exact absurd h (hnone hstart t)
  | some m =>
    rw [step_start hstart] at h
    cases h
    exact ⟨m, rfl, rfl⟩

/-- Settles O41: the step is `State.raiseTruncated`. -/
theorem endInsideInstructionFails : Obligations.EndInsideInstructionFails := fun s op hready hphase hopc hevent =>
  ⟨s.raiseTruncated op, step_end_eq_raiseTruncated hready hphase hopc hevent, rfl, rfl, rfl, rfl, rfl, rfl⟩

/-! ### The operand phases -/

/-- Settles O56. -/
theorem operandPhasesTakeAnyOpcode : Obligations.OperandPhasesTakeAnyOpcode := by
  refine fun s op b hready hopc hevent => ⟨fun hphase hnops => ?_, fun low hphase hlo => ?_⟩
  · rw [step_op1_byte hready hphase hopc hevent, if_neg hnops]
    rfl
  · rw [params_nops] at hlo
    rw [step_op2_byte_eq_afterRecord hready hphase hopc hlo hevent, afterRecord_eq_recorded]
    rfl

theorem exists_step_of_phase_opc {s : State} (hr : s.ready) (hp : s.phase = .opc) : ∃ t, step s = .next t := by
  cases he : s.event with
  | endOfStream => exact ⟨_, step_opc_end hr hp he⟩
  | byte b =>
    by_cases hn : nops b = 0
    · exact ⟨_, step_of_completes ⟨hr, .inl ⟨hp, he, hn, rfl, rfl⟩⟩⟩
    · exact ⟨_, step_of_stepEffect (.latchOpcode hr hp he hn)⟩

theorem exists_step_of_phase_op1 {s : State} {op : Byte} (hr : s.ready) (hp : s.phase = .op1) (ho : s.opc = some op) :
    ∃ t, step s = .next t := by
  cases he : s.event with
  | endOfStream => exact ⟨_, step_end_eq_raiseTruncated hr (.inl hp) ho he⟩
  | byte b =>
    by_cases hn : nops op = 1
    · exact ⟨_, step_of_completes ⟨hr, .inr (.inl ⟨hp, ho, he, hn, rfl⟩)⟩⟩
    · exact ⟨_, step_of_stepEffect (.latchLow hr hp ho he hn)⟩

theorem exists_step_of_phase_op2 {s : State} {op : Byte} (hr : s.ready) (hp : s.phase = .op2) (ho : s.opc = some op)
    (hlo : s.lo.isSome = true ∨ s.event = .endOfStream ∨ nops op = 0) : ∃ t, step s = .next t := by
  cases he : s.event with
  | endOfStream => exact ⟨_, step_end_eq_raiseTruncated hr (.inr hp) ho he⟩
  | byte b =>
    obtain hlo | hend | hn := hlo
    · obtain ⟨low, hlo⟩ := Option.isSome_iff_exists.mp hlo
      exact ⟨_, step_op2_byte_eq_afterRecord hr hp ho (.inl hlo) he⟩
    · simp [he] at hend
    · exact ⟨_, step_op2_byte_eq_afterRecord (low := 0) hr hp ho (.inr hn) he⟩

/-- The latches a step of phases OP1 and OP2 has read hold a value. -/
theorem StepEffect.latches_written {s t : State} (h : StepEffect s t) (hstart : s.start = none) :
    s.phase = .opc ∨ (s.phase = .op1 ∧ s.opc.isSome = true) ∨
      (s.phase = .op2 ∧ ∃ op, s.opc = some op ∧ (s.lo.isSome = true ∨ s.event = .endOfStream ∨ nops op = 0)) := by
  cases h with
  | start hsome => simp [hstart] at hsome
  | finish _ hp _ | latchOpcode _ hp _ _ => exact .inl hp
  | latchLow _ hp ho _ _ => simp [hp, ho]
  | truncate _ hp ho he => rcases hp with hp | hp <;> simp [hp, ho, he]
  | complete hbytes =>
    obtain ⟨-, ⟨hp, -⟩ | ⟨hp, ho, -⟩ | ⟨hp, ho, hl, -⟩⟩ := hbytes
    · exact .inl hp
    · simp [hp, ho]
    · simp [hp, ho, hl]
  | overrun _ hp ho hl _ _ =>
    rcases hl with hl | hn
    · simp [hp, ho, hl]
    · simp [hp, ho, hn]

/-- Settles O57: where the latches are written each phase has a step, and a step has found them written. -/
theorem stepsExactlyWhereLatchesAreWritten : Obligations.StepsExactlyWhereLatchesAreWritten := by
  refine fun s hstart => ⟨⟨fun ⟨t, h⟩ => ?_, fun ⟨hstarted, h⟩ => ?_⟩, fun hstarted hphase hopc => ?_,
    fun op b hstarted hphase hopc hnops hlo hevent => ?_⟩
  · have heffect := stepEffect_of_step h
    exact ⟨(heffect.ready_of_start_eq_none hstart).1.2, heffect.latches_written hstart⟩
  · have hready : s.ready := ⟨hstart, hstarted⟩
    obtain hphase | ⟨hphase, hopc⟩ | ⟨hphase, op, hopc, hlo⟩ := h
    · exact exists_step_of_phase_opc hready hphase
    · obtain ⟨op, hopc⟩ := Option.isSome_iff_exists.mp hopc
      exact exists_step_of_phase_op1 hready hphase hopc
    · exact exists_step_of_phase_op2 hready hphase hopc hlo
  · have hready : s.ready := ⟨hstart, hstarted⟩
    rcases hphase with hphase | hphase
    · simp only [step_ready hready, hphase, stepOp1, hopc]
    · simp only [step_ready hready, hphase, stepOp2, hopc]
  · have hready : s.ready := ⟨hstart, hstarted⟩
    simp only [step_ready hready, hphase, stepOp2, hopc, hevent, params_nops, if_neg (Nat.ne_of_gt hnops), hlo]

end Sys2Proof.Machine
end

section
/-! What every step does to the stream and to the status outputs: O42 and O43. -/

namespace Sys2Proof.Machine

theorem Completes.exists_event_byte {s : State} {op b1 b2 : Byte} (h : Completes s op b1 b2) : ∃ b, s.event = .byte b := by
  obtain ⟨-, ⟨-, he, -⟩ | ⟨-, -, he, -⟩ | ⟨-, -, -, he, -⟩⟩ := h
  · exact ⟨op, he⟩
  · exact ⟨b1, he⟩
  · exact ⟨b2, he⟩

theorem event_ne_end {s : State} {b : Byte} (h : s.event = .byte b) : s.event ≠ .endOfStream := by
  simp [h]

/-- Settles O42: two kinds of step read `End`, the others a byte. -/
theorem streamIsReadOnly : Obligations.StreamIsReadOnly := by
  intro s t hstart h
  cases stepEffect_of_step h with
  | start hsome => simp [hstart] at hsome
  | finish _ _ hend | truncate _ _ _ hend =>
    exact ⟨rfl, fun b hbyte => absurd hend (event_ne_end hbyte), fun _ => ⟨rfl, hend⟩, .inl rfl⟩
  | latchOpcode _ _ hbyte _ | latchLow _ _ _ hbyte _ =>
    exact ⟨rfl, fun _ _ => rfl, fun hend => absurd hend (event_ne_end hbyte), .inl rfl⟩
  | complete hbytes =>
    obtain ⟨b, hbyte⟩ := hbytes.exists_event_byte
    exact ⟨rfl, fun _ _ => rfl, fun hend => absurd hend (event_ne_end hbyte), .inr ⟨_, rfl⟩⟩
  | overrun _ _ _ _ hbyte _ =>
    exact ⟨rfl, fun _ _ => rfl, fun hend => absurd hend (event_ne_end hbyte), .inr ⟨_, rfl⟩⟩

@[simp] theorem busy_eq_true_iff (s : State) : s.busy = true ↔ s.phase = .op1 ∨ s.phase = .op2 := by
  simp [State.busy]

@[simp] theorem done_eq_true_iff (s : State) : s.done = true ↔ s.phase = .done := by
  simp [State.done]

@[simp] theorem error_eq_true_iff (s : State) : s.error = true ↔ s.phase = .err := by
  simp [State.error]

/-- Settles O43: each kind of step ends in one phase, and is told from the others by the phase and the event it began with. -/
theorem statusOutputs : Obligations.StatusOutputs := by
  refine ⟨fun s => ⟨busy_eq_true_iff s, done_eq_true_iff s, error_eq_true_iff s⟩, fun s t h => ?_⟩
  simp only [busy_eq_true_iff, done_eq_true_iff, error_eq_true_iff, State.outValid]
  cases stepEffect_of_step h with
  | start hsome => simp [hsome]
  | finish hr hp he => simp [hr.1, hp, he]
  | latchOpcode hr hp he hn => simp [hr.1, hp, he, Nat.one_le_iff_ne_zero, hn]
  | latchLow hr hp ho he hn => simp [hr.1, hp, ho, he, hn]
  | truncate hr hp ho he => rcases hp with hp | hp <;> simp [hr.1, hp, he]
  | complete hbytes =>
    obtain ⟨hr, ⟨hp, he, hn, -⟩ | ⟨hp, ho, he, hn, -⟩ | ⟨hp, ho, hl, he, hn⟩⟩ := hbytes
    · simp [hp, he, hn]
    · simp [hp, ho, he, hn]
    · simp [hp, he]
  | overrun _ hp _ _ he _ => simp [hp, he]

end Sys2Proof.Machine
end

section
/-! The invariant (10_state.md section 3): the state after reset meets it, every step keeps it, and a state that meets it steps
unless it is halted: O47 to O49 and O51. -/

namespace Sys2Proof.Machine

/-! ### Addresses and gaps -/

@[simp] theorem streamAddress_succ (n : Nat) : streamAddress (n + 1) = streamAddress n + 1 := BitVec.ofNat_add ..

/-- A record at the end of a gapless list moves that end by its length. -/
theorem gapless_concat {a stop : Word} {rs : List DecodedInstruction} {r : DecodedInstruction} (h : gapless a rs stop)
    (hr : r.address = stop) : gapless a (rs ++ [r]) (stop + BitVec.ofNat 16 r.byteLength) := by
  induction rs generalizing a with
  | nil =>
    obtain rfl : a = stop := h
    exact ⟨hr, rfl⟩
  | cons r0 rs ih => exact ⟨h.1, ih h.2⟩

theorem passRecords_afterRecord {s : State} (h : s.passBase ≤ s.emitted.length) (n : Nat) (r : DecodedInstruction) :
    (s.afterRecord n r).passRecords = s.passRecords ++ [r] :=
  List.drop_append_of_le_length h

/-! ### Each kind of step keeps the invariant -/

theorem beginPass_inv {s : State} {m : Memory} (hm : Memory.isStream m) (hrecords : ∀ r ∈ s.emitted, recordValid r) :
    (s.beginPass m).Inv := by
  constructor
  case stream_ok => exact hm
  case cursor_pc => simp [streamAddress, inFlight]
  case records_ok => exact hrecords
  case no_gap => simp [State.passRecords, gapless]
  all_goals simp

theorem Completes.phase_cases {s : State} {op b1 b2 : Byte} (h : Completes s op b1 b2) :
    s.phase = .opc ∨ s.phase = .op1 ∨ s.phase = .op2 := by
  obtain ⟨-, ⟨hp, -⟩ | ⟨hp, -⟩ | ⟨hp, -⟩⟩ := h <;> simp [hp]

theorem Completes.nops_eq_inFlight {s : State} {op b1 b2 : Byte} (h : Completes s op b1 b2) : nops op = inFlight s.phase := by
  obtain ⟨-, ⟨hp, -, hn, -⟩ | ⟨hp, -, -, hn, -⟩ | ⟨hp, -, -, -, hn⟩⟩ := h <;> rw [hp, hn] <;> rfl

section
variable {s : State} (hinv : s.Inv)
include hinv

theorem State.Inv.err_eq_none (hp : s.phase ≠ .err) : s.err = none := by
  simpa using mt hinv.err_iff.mpr hp

theorem State.Inv.cursor_lt_of_event_byte {b : Byte} (he : s.event = .byte b) : s.cursor < s.stream.length := by
  have hread := (read_eq_none_iff hinv.stream_ok s.cursor).not.mp (by simp [event_byte he])
  omega

theorem State.Inv.cursor_eq_of_event_end (he : s.event = .endOfStream) : s.cursor = s.stream.length :=
  Nat.le_antisymm hinv.cursor_le ((read_eq_none_iff hinv.stream_ok s.cursor).mp (event_end he))

theorem finishPass_inv (hp : s.phase = .opc) (he : s.event = .endOfStream) : s.finishPass.Inv :=
  { hinv with
    cursor_pc := fun _ => by simpa [hp, inFlight] using hinv.cursor_pc (by simp [hp])
    op1_latched := by simp
    op2_latched := by simp
    done_at_end := fun _ => hinv.cursor_eq_of_event_end he
    err_iff := by simp [hinv.err_eq_none (by simp [hp])]
    errValid_err := by simp
    out_is_last := by simp }

theorem latchOpcode_inv {op : Byte} (hp : s.phase = .opc) (he : s.event = .byte op) (hn : nops op ≠ 0) :
    (s.latchOpcode op).Inv :=
  have herr : s.err = none := hinv.err_eq_none (by simp [hp])
  { hinv with
    cursor_le := hinv.cursor_lt_of_event_byte he
    cursor_pc := fun _ => by simpa [hp, inFlight] using hinv.cursor_pc (by simp [hp])
    op1_latched := fun _ => ⟨op, rfl, Nat.one_le_iff_ne_zero.mpr hn, by simp, event_byte he⟩
    op2_latched := by simp
    done_at_end := by simp
    err_iff := by simp [herr]
    err_value := by simp [herr]
    errValid_err := by simp
    out_is_last := by simp }

theorem State.Inv.nops_of_phase_op2 {op : Byte} (hp : s.phase = .op2) (ho : s.opc = some op) : nops op = 2 := by
  obtain ⟨op', -, ho', -, htwo, -⟩ := hinv.op2_latched hp
  exact Option.some_inj.mp (ho.symm.trans ho') ▸ htwo

/-- The opcode latched in phase OP1 takes an operand byte, and goes on to phase OP2 only if it takes two. -/
theorem latchLow_inv {op b : Byte} (hp : s.phase = .op1) (ho : s.opc = some op) (he : s.event = .byte b)
    (hn : nops op ≠ 1) : (s.latchLow b).Inv := by
  have herr : s.err = none := hinv.err_eq_none (by simp [hp])
  have hpc := hinv.cursor_pc (by simp [hp])
  obtain ⟨op', ho', hpos, hcursor, hread⟩ := hinv.op1_latched hp
  obtain rfl : op = op' := Option.some_inj.mp (ho.symm.trans ho')
  have htwo : nops op = 2 := by
    have := nops_cases op
    omega
  exact
    { hinv with
      cursor_le := hinv.cursor_lt_of_event_byte he
      cursor_pc := fun _ => by simp [hpc, hp, inFlight, BitVec.add_assoc]
      op1_latched := by simp
      op2_latched := fun _ => ⟨op, b, ho, rfl, htwo, by simp [hcursor], hread, event_byte he⟩
      done_at_end := by simp
      err_iff := by simp [herr]
      err_value := by simp [herr]
      errValid_err := by simp
      out_is_last := by simp }

/-- In phases OP1 and OP2 an opcode with an operand byte is latched, and `pc` is as far behind the cursor as bytes of it were
read (R36 (a)). -/
theorem State.Inv.latched {op : Byte} (hp : s.phase = .op1 ∨ s.phase = .op2) (ho : s.opc = some op) :
    1 ≤ nops op ∧ (streamAddress s.cursor = s.pc + 1 ∨ streamAddress s.cursor = s.pc + 2 ∧ nops op = 2) := by
  rcases hp with hp | hp
  · obtain ⟨op', ho', hpos, -⟩ := hinv.op1_latched hp
    obtain rfl : op = op' := Option.some_inj.mp (ho.symm.trans ho')
    have hpc := hinv.cursor_pc (by simp [hp])
    exact ⟨hpos, .inl (by simpa [hp, inFlight] using hpc)⟩
  · have htwo := hinv.nops_of_phase_op2 hp ho
    have hpc := hinv.cursor_pc (by simp [hp])
    exact ⟨by omega, .inr ⟨by simpa [hp, inFlight] using hpc, htwo⟩⟩

theorem raiseTruncated_inv {op : Byte} (hp : s.phase = .op1 ∨ s.phase = .op2) (ho : s.opc = some op)
    (he : s.event = .endOfStream) : (s.raiseTruncated op).Inv := by
  obtain ⟨hpos, hcursor⟩ := hinv.latched hp ho
  exact
    { hinv with
      cursor_pc := fun h => absurd rfl h
      op1_latched := by simp
      op2_latched := by simp
      done_at_end := by simp
      err_iff := by simp
      err_value := by
        intro e h
        cases h
        exact ⟨rfl, ho, hpos, hinv.cursor_eq_of_event_end he, hcursor⟩
      errValid_err := fun _ => rfl
      out_is_last := by simp }

theorem complete_inv {op b1 b2 : Byte} (h : Completes s op b1 b2) :
    (s.afterRecord (1 + nops op) (s.recordOf op b1 b2)).Inv := by
  obtain ⟨b, he⟩ := h.exists_event_byte
  have hp : s.phase ≠ .err := by
    obtain hp | hp | hp := h.phase_cases <;> simp [hp]
  have herr : s.err = none := hinv.err_eq_none hp
  exact
    { hinv with
      cursor_le := hinv.cursor_lt_of_event_byte he
      cursor_pc := fun _ => by
        rw [afterRecord_cursor, afterRecord_pc, streamAddress_succ, hinv.cursor_pc hp, ← h.nops_eq_inFlight,
          Nat.add_comm 1]
        simp [inFlight, BitVec.ofNat_add, BitVec.add_assoc]
      op1_latched := by simp
      op2_latched := by simp
      done_at_end := by simp
      err_iff := by simp [herr]
      err_value := by simp [herr]
      errValid_err := by simp
      out_is_last := fun r h => ⟨rfl, by simpa using h⟩
      base_le := by simpa using Nat.le_succ_of_le hinv.base_le
      records_ok := by
        simp only [afterRecord_emitted, List.forall_mem_append, List.forall_mem_singleton]
        exact ⟨hinv.records_ok, recordOf_valid s op b1 b2⟩
      no_gap := by
        rw [passRecords_afterRecord hinv.base_le, afterRecord_pc, ← recordOf_byteLength s op b1 b2]
        exact gapless_concat hinv.no_gap rfl }

theorem stepEffect_inv {t : State} (h : StepEffect s t) : t.Inv := by
  cases h with
  | start hstart => exact beginPass_inv (hinv.start_ok _ hstart) hinv.records_ok
  | finish _ hp he => exact finishPass_inv hinv hp he
  | latchOpcode _ hp he hn => exact latchOpcode_inv hinv hp he hn
  | latchLow _ hp ho he hn => exact latchLow_inv hinv hp ho he hn
  | truncate _ hp ho he => exact raiseTruncated_inv hinv hp ho he
  | complete hbytes => exact complete_inv hinv hbytes
  | overrun _ hp ho _ _ hn => exact absurd (hinv.nops_of_phase_op2 hp ho) hn

end

/-! ### The obligations -/

/-- Settles O47: the state after reset is the one `start` makes with an empty stream. -/
theorem resetMeetsInvariant : Obligations.ResetMeetsInvariant :=
  beginPass_inv (s := State.reset) (m := []) rfl fun _ h => absurd h List.not_mem_nil

/-- Settles O48: each kind of step keeps the invariant, and phase OP2 holds an opcode of two operand bytes. -/
theorem stepKeepsInvariant : Obligations.StepKeepsInvariant :=
  fun _ _ hinv h => stepEffect_inv hinv (stepEffect_of_step h)

/-- Settles O49: the latches a step would read are written, so it is a case of O57. -/
theorem invariantStatesStep : Obligations.InvariantStatesStep := by
  intro s hinv hhalted
  cases hstart : s.start with
  | some m => exact ⟨_, step_start hstart⟩
  | none =>
    obtain ⟨hstarted, hdone, herr⟩ : s.started = true ∧ s.phase ≠ .done ∧ s.phase ≠ .err := by
      simpa [State.halted, hstart] using hhalted
    refine (stepsExactlyWhereLatchesAreWritten s hstart).1.mpr ⟨hstarted, ?_⟩
    cases hphase : s.phase with
    | opc => exact .inl rfl
    | op1 =>
      obtain ⟨op, hopc, -⟩ := hinv.op1_latched hphase
      simp [hopc]
    | op2 =>
      obtain ⟨op, low, hopc, hlo, -⟩ := hinv.op2_latched hphase
      simp [hopc, hlo]
    | done => exact absurd hphase hdone
    | err => exact absurd hphase herr

/-- Settles O51: only `State.raiseTruncated` ends in ERR, in phase OP1 or OP2 with the opcode latched there. -/
theorem onlyOperandTakingOpcodesTruncate : Obligations.OnlyOperandTakingOpcodesTruncate := by
  intro s t hinv hstart h hphase
  cases stepEffect_of_step h with
  | truncate _ hp ho _ =>
    have herr : s.err = none := hinv.err_eq_none (by rcases hp with hp | hp <;> simp [hp])
    exact ⟨_, rfl, (hinv.latched hp ho).1, rfl, rfl, rfl, by simp [State.errCode, herr], rfl⟩
  | start | finish | latchOpcode | latchLow | complete | overrun => cases hphase

end Sys2Proof.Machine
end

section
/-! An instruction's bytes, in the stream or placed there, and the steps that consume them: O44 to O46. -/

namespace Sys2Proof.Machine

/-! ### The step on the last byte is `exec` -/

/-- All the bytes given are the instruction's. -/
theorem decode_eq_ok_nil_iff {op : Byte} {bs : List Byte} {i : Instr} :
    decode (op :: bs) = .ok (i, []) ↔
      nops op = bs.length ∧ Instr.ofDecoded op (decodeOp Config.params op) (bs.getD 0 0) (bs.getD 1 0) = some i := by
  rw [decode_eq_ok_iff, List.drop_eq_nil_iff]
  constructor
  · exact fun ⟨hle, hi, hge⟩ => ⟨Nat.le_antisymm hle hge, hi⟩
  · exact fun ⟨hlen, hi⟩ => ⟨hlen.le, hi, hlen.ge⟩

/-- Settles O44: both sides emit the record of the bytes read. -/
theorem stepRunsDecodedInstruction : Obligations.StepRunsDecodedInstruction := by
  refine fun s i b hready hevent => ⟨fun hphase h => ?_, fun op hphase hopc h => ?_, fun op low hphase hopc hlo h => ?_⟩
  all_goals
    obtain ⟨hnops, hi⟩ := decode_eq_ok_nil_iff.mp h
    rw [exec_eq_afterRecord hi]
  · exact step_opc_complete hready hphase hevent hnops _ _
  · exact step_op1_complete hready hphase hopc hevent hnops _
  · exact step_op2_complete hready hphase hopc hlo hevent hnops

/-! ### A placed word -/

/-- The placed bytes but the last are latched, and the last stands at the cursor. -/
theorem step_withFetchWord (s : State) {nbits w : Nat} {op low high : Byte} (h : tableBytes nbits w = [op, low, high]) :
    step (s.withFetchWord nbits w) =
      .next ((s.withFetchWord nbits w).afterRecord (1 + nops op) ((s.withFetchWord nbits w).recordOf op low high)) := by
  have hready : (s.withFetchWord nbits w).ready := ⟨rfl, rfl⟩
  rcases nops_cases op with hn | hn | hn
  · refine step_opc_complete hready ?_ (event_of_read ?_) hn low high <;>
      simp [State.withFetchWord, State.placeWord, h, hn, read_write_other]
  · refine step_op1_complete hready ?_ ?_ (event_of_read ?_) hn high <;>
      simp [State.withFetchWord, State.placeWord, h, hn, read_write_other]
  · refine step_op2_complete hready ?_ ?_ ?_ (event_of_read ?_) hn <;>
      simp [State.withFetchWord, State.placeWord, h, hn]

/-- Settles O45: the step and `exec` emit the record of the word's bytes. -/
theorem placedWordRunsNext : Obligations.PlacedWordRunsNext := by
  intro s nbits w i h
  obtain ⟨op, low, high, hbytes⟩ : ∃ op low high, tableBytes nbits w = [op, low, high] := ⟨_, _, _, rfl⟩
  have hi : Instr.ofDecoded op (decodeOp Config.params op) low high = some i := by
    rw [decodeTableWord, hbytes] at h
    split at h
    · next j rest hdecode =>
      cases h
      exact (decode_eq_ok_iff.mp hdecode).2.1
    · cases h
  rw [step_withFetchWord s hbytes, exec_eq_afterRecord hi]

/-! ### An instruction at the cursor -/

theorem runSteps_of_step {s t : State} (h : step s = .next t) (k : Nat) : runSteps (k + 1) s = runSteps k t := by
  simp only [runSteps, h]

/-- From an instruction boundary the machine takes one step for each byte of the instruction at the cursor: it emits the
record, and of all that the latching of R121 and R122 changes only the cursor and the latches are left. -/
theorem runSteps_instruction {s : State} {op b1 b2 : Byte} (hr : s.ready) (hp : s.phase = .opc)
    (hop : s.stream.read s.cursor = some op) (hb1 : 1 ≤ nops op → s.stream.read (s.cursor + 1) = some b1)
    (hb2 : nops op = 2 → s.stream.read (s.cursor + 2) = some b2) :
    ∃ opc lo, runSteps (1 + nops op) s =
      .next { s.afterRecord (1 + nops op) (s.recordOf op b1 b2) with cursor := s.cursor + (1 + nops op), opc, lo } := by
  have hlatch (hn : nops op ≠ 0) : step s = .next (s.latchOpcode op) :=
    step_of_stepEffect (.latchOpcode hr hp (event_of_read hop) hn)
  rcases nops_cases op with hn | hn | hn
  · have h0 := step_opc_complete hr hp (event_of_read hop) hn b1 b2
    refine ⟨s.opc, s.lo, ?_⟩
    rw [hn] at h0 ⊢
    rw [runSteps_of_step h0]
    rfl
  · have h1 := step_op1_complete (s := s.latchOpcode op) hr rfl rfl (event_of_read (hb1 hn.ge)) hn b2
    refine ⟨some op, s.lo, ?_⟩
    rw [hn] at h1 ⊢
    rw [runSteps_of_step (hlatch (by simp [hn])), runSteps_of_step h1]
    rfl
  · have h1 : step (s.latchOpcode op) = .next ((s.latchOpcode op).latchLow b1) :=
      step_of_stepEffect (.latchLow hr rfl rfl (event_of_read (hb1 (by simp [hn]))) (by simp [hn]))
    have h2 := step_op2_complete (s := (s.latchOpcode op).latchLow b1) hr rfl rfl rfl (event_of_read (hb2 hn)) hn
    refine ⟨some op, some b1, ?_⟩
    rw [hn] at h2 ⊢
    rw [runSteps_of_step (hlatch (by simp [hn])), runSteps_of_step h1, runSteps_of_step h2]
    rfl

/-- Settles O46: the bytes at the cursor are the opcode and the operand bytes of the encoding. -/
theorem instructionRunsInItsLength : Obligations.InstructionRunsInItsLength := by
  intro s i hready hphase _ hread
  have hoperand (k : Nat) (hk : k < nops i.opcode) : s.stream.read (s.cursor + (k + 1)) = some (i.operandBytes.getD k 0) := by
    apply hread
    rw [← operandBytes_length] at hk
    simp [encode, hk]
  obtain ⟨opc, lo, hrun⟩ := runSteps_instruction hready hphase (hread 0 i.opcode rfl) (hoperand 0)
    fun hn => hoperand 1 (by omega)
  rw [encode_length]
  refine ⟨_, _, hrun, rfl, ?_, rfl, rfl, rfl, rfl, rfl, rfl, rfl, hready⟩
  exact toNat_add_ofNat s.pc (instrLength i.opcode)

end Sys2Proof.Machine
end

section
/-! The history of a state, its records of earlier passes, is seen by no step: O54. It carries a pass from the reset state to
any state before `start`. -/

namespace Sys2Proof.Machine

/-- `s` with the records `old` in place of those older than the current pass. -/
def State.withHistory (s : State) (old : List DecodedInstruction) : State :=
  { s with emitted := old ++ s.passRecords, passBase := old.length }

@[simp] theorem passRecords_withHistory (s : State) (old : List DecodedInstruction) :
    (s.withHistory old).passRecords = s.passRecords :=
  List.drop_left

@[simp] theorem outcome_withHistory (s : State) (old : List DecodedInstruction) : (s.withHistory old).outcome = s.outcome :=
  rfl

@[simp] theorem observation_withHistory (s : State) (old : List DecodedInstruction) :
    (s.withHistory old).observation = s.observation := by
  simp [State.observation]

theorem startedOn_withHistory (s s' : State) (bytes : List Byte) :
    (s.startedOn bytes).withHistory s'.emitted = s'.startedOn bytes := by
  simp [State.withHistory, State.startedOn, State.passRecords, State.beginPass]

/-! ### What a step that takes no `start` leaves alone -/

theorem StepEffect.ready_keeps {s t : State} (h : StepEffect s t) (hready : s.ready) : t.ready := by
  cases h with
  | start hsome => simp [hready.1] at hsome
  | finish | latchOpcode | latchLow | truncate | complete | overrun => exact hready

theorem StepEffect.passBase_le {s t : State} (h : StepEffect s t) (hready : s.ready)
    (hbase : s.passBase ≤ s.emitted.length) : t.passBase ≤ t.emitted.length := by
  cases h with
  | start hsome => simp [hready.1] at hsome
  | finish | latchOpcode | latchLow | truncate => exact hbase
  | complete | overrun => simpa using Nat.le_succ_of_le hbase

/-! ### A step does not see the history -/

theorem withHistory_afterRecord {s : State} (hbase : s.passBase ≤ s.emitted.length) (n : Nat) (r : DecodedInstruction)
    (old : List DecodedInstruction) : (s.afterRecord n r).withHistory old = (s.withHistory old).afterRecord n r := by
  rw [State.withHistory, passRecords_afterRecord hbase, ← List.append_assoc]
  rfl

theorem StepEffect.withHistory {s t : State} (h : StepEffect s t) (hready : s.ready)
    (hbase : s.passBase ≤ s.emitted.length) (old : List DecodedInstruction) :
    StepEffect (s.withHistory old) (t.withHistory old) := by
  cases h with
  | start hsome => simp [hready.1] at hsome
  | finish hr hp he => exact .finish hr hp he
  | latchOpcode hr hp he hn => exact .latchOpcode hr hp he hn
  | latchLow hr hp ho he hn => exact .latchLow hr hp ho he hn
  | truncate hr hp ho he => exact .truncate hr hp ho he
  | complete hbytes =>
    rw [withHistory_afterRecord hbase]
    exact .complete ⟨hbytes.ready, hbytes.form⟩
  | overrun hr hp ho hl he hn =>
    rw [withHistory_afterRecord hbase]
    exact .overrun hr hp ho hl he hn

/-! ### Runs -/

theorem runSteps_succ_eq_next_iff {k : Nat} {s t : State} :
    runSteps (k + 1) s = .next t ↔ ∃ u, step s = .next u ∧ runSteps k u = .next t := by
  rw [runSteps]
  cases step s <;> simp

theorem runSteps_withHistory {k : Nat} {s t : State} (hready : s.ready) (hbase : s.passBase ≤ s.emitted.length)
    (h : runSteps k s = .next t) (old : List DecodedInstruction) :
    runSteps k (s.withHistory old) = .next (t.withHistory old) := by
  induction k generalizing s with
  | zero =>
    cases h
    rfl
  | succ k ih =>
    obtain ⟨u, hstep, hrun⟩ := runSteps_succ_eq_next_iff.mp h
    have heffect := stepEffect_of_step hstep
    exact runSteps_succ_eq_next_iff.mpr ⟨_, step_of_stepEffect (heffect.withHistory hready hbase old),
      ih (heffect.ready_keeps hready) (heffect.passBase_le hready hbase) hrun⟩

/-- A run of a pass is the same from any other state before `start`, but for the history. -/
theorem runSteps_startedOn {k : Nat} {s t : State} {bytes : List Byte} (h : runSteps k (s.startedOn bytes) = .next t)
    (s' : State) : runSteps k (s'.startedOn bytes) = .next (t.withHistory s'.emitted) :=
  startedOn_withHistory s s' bytes ▸ runSteps_withHistory ⟨rfl, rfl⟩ (Nat.le_refl _) h s'.emitted

/-- Settles O54: the other run ends in the same state but for the history. -/
theorem passDependsOnStreamAlone : Obligations.PassDependsOnStreamAlone := fun _ s' t _ _ h =>
  ⟨t.withHistory s'.emitted, runSteps_startedOn h s', passRecords_withHistory .., rfl, rfl, rfl⟩

end Sys2Proof.Machine
end

section
/-! The step machine computes the pass function (40_decode_engine.md R137), in one step for each byte of the stream and one for
its end (R285): O52 and O53. -/

namespace Sys2Proof.Machine

/-! ### How many steps are left -/

/-- One step for each unread byte and one for `End`, none in a terminal phase. -/
def State.stepsLeft (s : State) : Nat :=
  match s.phase with
  | .opc | .op1 | .op2 => s.stream.length - s.cursor + 1
  | .done | .err => 0

theorem stepsLeft_of_not_ended {s : State} (hp : s.phase = .opc ∨ s.phase = .op1 ∨ s.phase = .op2) :
    s.stepsLeft = s.stream.length - s.cursor + 1 := by
  rcases hp with hp | hp | hp <;> simp [State.stepsLeft, hp]

/-- A byte is read, and the pass has not ended. -/
theorem stepsLeft_of_byte_read {s t : State} (hs : s.phase = .opc ∨ s.phase = .op1 ∨ s.phase = .op2)
    (ht : t.phase = .opc ∨ t.phase = .op1 ∨ t.phase = .op2) (hstream : t.stream = s.stream)
    (hcursor : t.cursor = s.cursor + 1) (hlt : s.cursor < s.stream.length) : s.stepsLeft = t.stepsLeft + 1 := by
  rw [stepsLeft_of_not_ended hs, stepsLeft_of_not_ended ht, hstream, hcursor]
  omega

/-- `End` is read, and the pass ends. -/
theorem stepsLeft_of_end_read {s t : State} (hs : s.phase = .opc ∨ s.phase = .op1 ∨ s.phase = .op2)
    (ht : t.phase = .done ∨ t.phase = .err) (hcursor : s.cursor = s.stream.length) : s.stepsLeft = t.stepsLeft + 1 := by
  rw [stepsLeft_of_not_ended hs, hcursor]
  rcases ht with ht | ht <;> simp [State.stepsLeft, ht]

theorem StepEffect.stepsLeft_eq {s t : State} (h : StepEffect s t) (hinv : s.Inv) (hready : s.ready) :
    s.stepsLeft = t.stepsLeft + 1 := by
  cases h with
  | start hsome => simp [hready.1] at hsome
  | finish _ hp he => exact stepsLeft_of_end_read (.inl hp) (.inl rfl) (hinv.cursor_eq_of_event_end he)
  | truncate _ hp _ he => exact stepsLeft_of_end_read (.inr hp) (.inr rfl) (hinv.cursor_eq_of_event_end he)
  | latchOpcode _ hp he _ =>
    exact stepsLeft_of_byte_read (.inl hp) (.inr (.inl rfl)) rfl rfl (hinv.cursor_lt_of_event_byte he)
  | latchLow _ hp _ he _ =>
    exact stepsLeft_of_byte_read (.inr (.inl hp)) (.inr (.inr rfl)) rfl rfl (hinv.cursor_lt_of_event_byte he)
  | complete hbytes =>
    obtain ⟨b, he⟩ := hbytes.exists_event_byte
    exact stepsLeft_of_byte_read hbytes.phase_cases (.inl rfl) rfl rfl (hinv.cursor_lt_of_event_byte he)
  | overrun _ hp _ _ he _ =>
    exact stepsLeft_of_byte_read (.inr (.inr hp)) (.inl rfl) rfl rfl (hinv.cursor_lt_of_event_byte he)

theorem startedOn_stepsLeft (s : State) (bytes : List Byte) : (s.startedOn bytes).stepsLeft = bytes.length + 1 := by
  simp [State.stepsLeft, State.startedOn]

/-! ### What is left of the pass -/

/-- The bytes of the stream from the instruction at `pc` on. -/
def State.unread (s : State) : List Byte := s.stream.bytes.drop (s.cursor - inFlight s.phase)

theorem drop_bytes_of_read {m : Memory} (hm : m.isStream) {k : Nat} {b : Byte} (h : m.read k = some b) :
    m.bytes.drop k = b :: m.bytes.drop (k + 1) := by
  rw [read_isStream hm] at h
  rw [List.drop_eq_getElem?_toList_append, h]
  rfl

theorem drop_bytes_of_event_byte {s : State} (hinv : s.Inv) {b : Byte} (he : s.event = .byte b) :
    s.stream.bytes.drop s.cursor = b :: s.stream.bytes.drop (s.cursor + 1) :=
  drop_bytes_of_read hinv.stream_ok (event_byte he)

theorem drop_bytes_of_event_end {s : State} (hinv : s.Inv) (he : s.event = .endOfStream) :
    s.stream.bytes.drop s.cursor = [] := by
  simp [Memory.bytes, hinv.cursor_eq_of_event_end he]

theorem unread_of_phase_opc {s : State} (hp : s.phase = .opc) : s.unread = s.stream.bytes.drop s.cursor := by
  simp [State.unread, hp, inFlight]

theorem unread_of_phase_op1 {s : State} {op : Byte} (hinv : s.Inv) (hp : s.phase = .op1) (ho : s.opc = some op) :
    s.unread = op :: s.stream.bytes.drop s.cursor := by
  obtain ⟨op', ho', -, hcursor, hread⟩ := hinv.op1_latched hp
  obtain rfl : op = op' := Option.some_inj.mp (ho.symm.trans ho')
  rw [State.unread, hp, inFlight, drop_bytes_of_read hinv.stream_ok hread, Nat.sub_add_cancel hcursor]

theorem unread_of_phase_op2 {s : State} {op low : Byte} (hinv : s.Inv) (hp : s.phase = .op2) (ho : s.opc = some op)
    (hl : s.lo = some low) : s.unread = op :: low :: s.stream.bytes.drop s.cursor := by
  obtain ⟨op', low', ho', hl', -, hcursor, hop, hlow⟩ := hinv.op2_latched hp
  obtain rfl : op = op' := Option.some_inj.mp (ho.symm.trans ho')
  obtain rfl : low = low' := Option.some_inj.mp (hl.symm.trans hl')
  rw [State.unread, hp, inFlight, drop_bytes_of_read hinv.stream_ok hop, show s.cursor - 2 + 1 = s.cursor - 1 by omega,
    drop_bytes_of_read hinv.stream_ok hlow, Nat.sub_add_cancel (by omega)]

theorem unread_latchOpcode {s : State} (hp : s.phase = .opc) (op : Byte) : (s.latchOpcode op).unread = s.unread := by
  simp [State.unread, hp, inFlight]

theorem unread_latchLow {s : State} (hp : s.phase = .op1) (b : Byte) : (s.latchLow b).unread = s.unread := by
  simp [State.unread, hp, inFlight]

@[simp] theorem unread_afterRecord (s : State) (n : Nat) (r : DecodedInstruction) :
    (s.afterRecord n r).unread = s.stream.bytes.drop (s.cursor + 1) := rfl

/-- The pass function on an instruction whose last byte is at the cursor: its record, then the pass behind it. -/
theorem passFrom_unread_of_completes {s : State} {op b1 b2 : Byte} (hinv : s.Inv) (h : Completes s op b1 b2) :
    passFrom Config.params s.pc s.unread =
      consRecord (s.recordOf op b1 b2)
        (passFrom Config.params (s.pc + BitVec.ofNat 16 (1 + nops op)) (s.stream.bytes.drop (s.cursor + 1))) := by
  obtain ⟨-, ⟨hp, he, hn, rfl, rfl⟩ | ⟨hp, ho, he, hn, rfl⟩ | ⟨hp, ho, hl, he, hn⟩⟩ := h
  · rw [unread_of_phase_opc hp, drop_bytes_of_event_byte hinv he, passFrom_zero _ _ _ (by simp [hn]), hn]
    rfl
  · rw [unread_of_phase_op1 hinv hp ho, drop_bytes_of_event_byte hinv he, passFrom_one _ _ _ _ (by simp [hn]), hn]
    rfl
  · rw [unread_of_phase_op2 hinv hp ho hl, drop_bytes_of_event_byte hinv he, passFrom_two _ _ _ _ _ (by simp [hn]), hn]
    rfl

/-- The pass function on an instruction the stream ends inside. -/
theorem passFrom_unread_of_event_end {s : State} {op : Byte} (hinv : s.Inv) (hp : s.phase = .op1 ∨ s.phase = .op2)
    (ho : s.opc = some op) (he : s.event = .endOfStream) :
    passFrom Config.params s.pc s.unread = ([], .truncated s.pc op) := by
  rcases hp with hp | hp
  · rw [unread_of_phase_op1 hinv hp ho, drop_bytes_of_event_end hinv he]
    exact passFrom_short _ _ _ (by rw [params_nops]; exact (hinv.latched (.inl hp) ho).1)
  · obtain ⟨op', low, ho', hl, htwo, -⟩ := hinv.op2_latched hp
    obtain rfl : op = op' := Option.some_inj.mp (ho.symm.trans ho')
    rw [unread_of_phase_op2 hinv hp ho hl, drop_bytes_of_event_end hinv he]
    exact passFrom_short _ _ _ (by simp [htwo])

/-! ### The result a pass is on the way to -/

/-- The records of this pass so far, then what the pass function gives on the rest. -/
def State.expected (s : State) : List DecodedInstruction × PassOutcome :=
  (s.passRecords ++ (passFrom Config.params s.pc s.unread).1, (passFrom Config.params s.pc s.unread).2)

theorem expected_latchOpcode {s : State} (hp : s.phase = .opc) (op : Byte) : (s.latchOpcode op).expected = s.expected := by
  rw [State.expected, unread_latchOpcode hp]
  rfl

theorem expected_latchLow {s : State} (hp : s.phase = .op1) (b : Byte) : (s.latchLow b).expected = s.expected := by
  rw [State.expected, unread_latchLow hp]
  rfl

theorem expected_of_completes {s : State} {op b1 b2 : Byte} (hinv : s.Inv) (h : Completes s op b1 b2) :
    (s.afterRecord (1 + nops op) (s.recordOf op b1 b2)).expected = s.expected := by
  rw [State.expected, passRecords_afterRecord hinv.base_le, unread_afterRecord, afterRecord_pc, State.expected,
    passFrom_unread_of_completes hinv h]
  simp [consRecord]

theorem expected_of_boundary_end {s : State} (hinv : s.Inv) (hp : s.phase = .opc) (he : s.event = .endOfStream) :
    s.expected = (s.passRecords, .success) := by
  simp [State.expected, unread_of_phase_opc hp, drop_bytes_of_event_end hinv he]

theorem expected_of_operand_end {s : State} {op : Byte} (hinv : s.Inv) (hp : s.phase = .op1 ∨ s.phase = .op2)
    (ho : s.opc = some op) (he : s.event = .endOfStream) : s.expected = (s.passRecords, .truncated s.pc op) := by
  simp [State.expected, passFrom_unread_of_event_end hinv hp ho he]

/-- The pass has ended with `p`, or it is on the way to `p`. -/
def State.headsFor (s : State) (p : List DecodedInstruction × PassOutcome) : Prop :=
  match s.phase with
  | .opc | .op1 | .op2 => s.expected = p
  | .done | .err => s.observation = some p

theorem headsFor_iff_expected {s : State} (hp : s.phase = .opc ∨ s.phase = .op1 ∨ s.phase = .op2)
    (p : List DecodedInstruction × PassOutcome) : s.headsFor p ↔ s.expected = p := by
  rcases hp with hp | hp | hp <;> simp [State.headsFor, hp]

theorem StepEffect.headsFor {s t : State} {p : List DecodedInstruction × PassOutcome} (h : StepEffect s t) (hinv : s.Inv)
    (hready : s.ready) (hp : s.headsFor p) : t.headsFor p := by
  cases h with
  | start hsome => simp [hready.1] at hsome
  | finish _ hphase he =>
    rw [headsFor_iff_expected (.inl hphase), expected_of_boundary_end hinv hphase he] at hp
    exact congrArg some hp
  | latchOpcode _ hphase _ _ =>
    rw [headsFor_iff_expected (.inr (.inl rfl)), expected_latchOpcode hphase]
    exact (headsFor_iff_expected (.inl hphase) p).mp hp
  | latchLow _ hphase _ _ _ =>
    rw [headsFor_iff_expected (.inr (.inr rfl)), expected_latchLow hphase]
    exact (headsFor_iff_expected (.inr (.inl hphase)) p).mp hp
  | truncate _ hphase ho he =>
    rw [headsFor_iff_expected (.inr hphase), expected_of_operand_end hinv hphase ho he] at hp
    exact congrArg some hp
  | complete hbytes =>
    rw [headsFor_iff_expected (.inl rfl), expected_of_completes hinv hbytes]
    exact (headsFor_iff_expected hbytes.phase_cases p).mp hp
  | overrun _ hphase ho _ _ hn => exact absurd (hinv.nops_of_phase_op2 hphase ho) hn

/-! ### Running to the end -/

/-- A pass on the way to `p`: what each step of it keeps. -/
structure State.Running (s : State) (p : List DecodedInstruction × PassOutcome) : Prop where
  inv      : s.Inv
  ready    : s.ready
  headsFor : s.headsFor p

theorem State.Running.step {s t : State} {p : List DecodedInstruction × PassOutcome} (h : s.Running p)
    (hstep : step s = .next t) : t.Running p where
  inv := stepKeepsInvariant s t h.inv hstep
  ready := (stepEffect_of_step hstep).ready_keeps h.ready
  headsFor := (stepEffect_of_step hstep).headsFor h.inv h.ready h.headsFor

theorem startedOn_running (bytes : List Byte) : (State.reset.startedOn bytes).Running (pass Config.params bytes) where
  inv := beginPass_inv (ofBytes_isStream bytes) fun _ h => absurd h List.not_mem_nil
  ready := ⟨rfl, rfl⟩
  headsFor := by
    simp [headsFor_iff_expected, State.expected, State.unread, State.startedOn, State.passRecords, inFlight, pass]

theorem State.Running.exists_step {s : State} {p : List DecodedInstruction × PassOutcome} (h : s.Running p)
    (hleft : s.stepsLeft ≠ 0) : ∃ t, Machine.step s = .next t := by
  refine invariantStatesStep s h.inv ?_
  rintro ⟨-, hstarted | hphase | hphase⟩
  · simp [h.ready.2] at hstarted
  · simp [State.stepsLeft, hphase] at hleft
  · simp [State.stepsLeft, hphase] at hleft

theorem State.Running.observation_of_stepsLeft_eq_zero {s : State} {p : List DecodedInstruction × PassOutcome}
    (h : s.Running p) (hleft : s.stepsLeft = 0) : s.observation = some p := by
  have hp := h.headsFor
  unfold State.stepsLeft at hleft
  unfold State.headsFor at hp
  cases hphase : s.phase <;> simp only [hphase] at hp hleft
  case done | err => exact hp
  all_goals omega

/-- The pass ends with its result after exactly the steps left. -/
theorem State.Running.runSteps_stepsLeft {s : State} {p : List DecodedInstruction × PassOutcome} {k : Nat} (h : s.Running p)
    (hk : s.stepsLeft = k) : ∃ t, runSteps k s = .next t ∧ t.observation = some p := by
  induction k generalizing s with
  | zero => exact ⟨s, rfl, h.observation_of_stepsLeft_eq_zero hk⟩
  | succ k ih =>
    obtain ⟨t, hstep⟩ := h.exists_step (by simp [hk])
    have hleft := (stepEffect_of_step hstep).stepsLeft_eq h.inv h.ready
    obtain ⟨u, hrun, hobs⟩ := ih (h.step hstep) (by omega)
    exact ⟨u, by rw [runSteps_of_step hstep, hrun], hobs⟩

/-- No run is longer than the steps left. -/
theorem State.Running.le_stepsLeft {s t : State} {p : List DecodedInstruction × PassOutcome} {k : Nat} (h : s.Running p)
    (hrun : runSteps k s = .next t) : k ≤ s.stepsLeft := by
  induction k generalizing s with
  | zero => exact Nat.zero_le _
  | succ k ih =>
    obtain ⟨u, hstep, hrun⟩ := runSteps_succ_eq_next_iff.mp hrun
    have hleft := (stepEffect_of_step hstep).stepsLeft_eq h.inv h.ready
    have := ih (h.step hstep) hrun
    omega

/-! ### The obligations -/

/-- The pass function truncates an opcode exactly when too few bytes follow it: otherwise it has a record of it. -/
theorem passFrom_eq_truncated_iff (P : Params) (pc : Word) (op : Byte) (rest : List Byte) :
    passFrom P pc (op :: rest) = ([], .truncated pc op) ↔ rest.length < (decodeOp P op).nops := by
  refine ⟨fun h => ?_, passFrom_short P pc rest⟩
  by_contra hlong
  have hnops := decodeOp_nops P op
  rcases nops_cases op with hn | hn | hn <;> rw [hn] at hnops
  · simp [passFrom_zero P pc rest hnops, consRecord] at h
  · obtain ⟨b1, rest, rfl⟩ := List.exists_cons_of_length_pos (l := rest) (by omega)
    simp [passFrom_one P pc b1 rest hnops, consRecord] at h
  · rw [Nat.not_lt, hnops] at hlong
    match rest, hlong with
    | b1 :: b2 :: rest, _ => simp [passFrom_two P pc b1 b2 rest hnops, consRecord] at h

/-- Settles O52: from the reset state each step keeps the result the pass heads for, and any other state before `start` differs
only in its history. -/
theorem stepMachineComputesThePass : Obligations.StepMachineComputesThePass := by
  refine ⟨fun s bytes => ?_, passFrom_eq_truncated_iff⟩
  obtain ⟨t, hrun, hobs⟩ := (startedOn_running bytes).runSteps_stepsLeft (startedOn_stepsLeft _ bytes)
  exact ⟨_, _, Nat.le_refl _, runSteps_startedOn hrun s, by rw [observation_withHistory, hobs]⟩

/-- Settles O53: from the reset state, whose runs are as long as any other's. -/
theorem passEndsInTime : Obligations.PassEndsInTime := by
  intro s t bytes k hrun
  rw [← startedOn_stepsLeft State.reset bytes]
  exact (startedOn_running bytes).le_stepsLeft (runSteps_startedOn hrun State.reset)

end Sys2Proof.Machine
end

section
/-! The decode core's fields, tables and rows (30_encoding.md sections 1 and 3) and the byte order (20_memory.md R53): O1, O2,
O4, O8. -/

namespace Sys2Proof

/-! ### Fields and tables -/

theorem fieldP_toNat (op : Byte) : (fieldP op).toNat = op.toNat / 8 % 8 := by
  revert op; decide

theorem fieldS_toNat (op : Byte) : (fieldS op).toNat = op.toNat % 8 := by
  revert op; decide

theorem fieldRP_toNat (op : Byte) : (fieldRP op).toNat = op.toNat / 16 % 4 := by
  revert op; decide

/-- Settles O1: the selectors by arithmetic on the byte, the tables code by code. -/
theorem fieldSelectorsAndTables : Obligations.FieldSelectorsAndTables := by
  refine ⟨fun op => ⟨fieldP_toNat op, fieldS_toNat op, fieldRP_toNat op⟩, by decide, fun c ctx => ?_, by decide⟩
  revert c
  cases ctx <;> decide

/-! ### The guards -/

theorem isRegisterCode_eq_true_iff (c : BitVec 3) : isRegisterCode c = true ↔ c ≠ 6 := by
  simp [isRegisterCode]

theorem hasValidDestination_eq_true_iff (op : Byte) :
    hasValidDestination op = true ↔ isRegisterCode (fieldP op) = true ∨ fieldP op = 6 := by
  rw [hasValidDestination, Bool.or_eq_true, beq_iff_eq]

theorem hasValidSource_eq_true_iff (op : Byte) :
    hasValidSource op = true ↔ isRegisterCode (fieldS op) = true ∨ fieldS op = 6 := by
  rw [hasValidSource, Bool.or_eq_true, beq_iff_eq]

theorem guardedRange_eq_none {mask value op : Byte} {guard : Byte → Bool} (d : Byte → Decoded) (hguard : guard op = false) :
    guardedRange mask value guard d op = none :=
  if_neg fun h => by simp [hguard] at h

/-- Settles O2. -/
theorem guardsHoldAndFallThrough : Obligations.GuardsHoldAndFallThrough := by
  refine ⟨isRegisterCode_eq_true_iff, fun op => ⟨hasValidDestination_eq_true_iff op, hasValidSource_eq_true_iff op,
    hasValidDestination_eq_true op, hasValidSource_eq_true op⟩, fun mask value guard d rest op hguard => ?_⟩
  rw [List.findSome?_cons, guardedRange_eq_none d hguard]

/-! ### The table -/

/-- What a row of the table says of its opcodes (R92). -/
def TableRow.says (row : TableRow) : Mnemonic × Format × Kind × Nat :=
  (row.mnemonic, row.format, row.kind, row.operandBytes)

/-- What the decision list says of an opcode, in the same form. -/
def Decoded.says (d : Decoded) : Mnemonic × Format × Kind × Nat := (d.mnemonic, d.format, d.kind, d.nops)

/-- The rows that cover an opcode are one, and it says what the decision list says. -/
theorem map_says_filter_covers (op : Byte) :
    (opcodeTable.filter fun row => row.covers op).map TableRow.says = [(decodeOp Config.params op).says] := by
  revert op; decide

/-- Settles O4. -/
theorem tableRowsPartitionOpcodes : Obligations.TableRowsPartitionOpcodes := by
  refine ⟨rfl, fun op => ?_⟩
  obtain ⟨row, hfilter, hsays⟩ := List.map_eq_singleton_iff.mp (map_says_filter_covers op)
  obtain ⟨hmem, hcovers⟩ := List.mem_filter.mp (hfilter ▸ List.mem_singleton_self row)
  simp only [TableRow.says, Decoded.says, Prod.mk.injEq] at hsays
  obtain ⟨hmnemonic, hformat, hkind, hnops⟩ := hsays
  exact ⟨row, hmem, hcovers, hfilter, hmnemonic.symm, hformat.symm, hkind.symm, hnops.symm⟩

/-! ### The byte order -/

theorem wordOf_toNat (low high : Byte) : (wordOf low high).toNat = low.toNat + high.toNat * 256 := by
  simp [wordOf, BitVec.toNat_add, BitVec.toNat_shiftLeft, Nat.shiftLeft_eq]
  omega

@[simp] theorem encode_jmp (w : Word) : encode (.jmp w) = [0xC3, lowByte w, highByte w] := rfl

@[simp] theorem encode_lxi_hl (w : Word) : encode (.lxi .hl w) = [0x21, lowByte w, highByte w] := rfl

/-- Settles O8: every word in question is put together by `wordOf` from its bytes in stream order. -/
theorem wordsAreLittleEndian : Obligations.WordsAreLittleEndian := by
  refine ⟨wordOf_toNat, wordOf_bytes, rfl, fun P pc op b1 b2 rest hnops => ?_, fun b1 b2 rest => ?_, fun w b1 b2 h => ?_⟩
  · exact ⟨_, _, _, Machine.passFrom_two P pc b1 b2 rest hnops, Machine.mkrec_imm16 hnops .., wordOf_toNat b1 b2⟩
  · refine ⟨wordOf b1 b2, wordOf_toNat b1 b2, ?_, ?_⟩
    · simpa using decodeEncodeRoundTrip (.jmp (wordOf b1 b2)) rest rfl
    · simpa using decodeEncodeRoundTrip (.lxi .hl (wordOf b1 b2)) rest rfl
  · obtain ⟨rfl, rfl⟩ : lowByte w = b1 ∧ highByte w = b2 := by simpa using h
    rw [← wordOf_toNat, wordOf_bytes]

end Sys2Proof
end
